-- ==== Sys2Proof/Word.lean ====
section
/-! DEFINITION. The words of the KW4132 and the names of its chains, channels and wake inputs. -/

namespace Sys2Proof

abbrev Byte := BitVec 8
/-- A value of the Timebase count (R1). -/
abbrev Instant := BitVec 32
/-- An instant to 0.1 µs, as a Chain Port stamps what it receives (R3, R49): whole µs of the Timebase, and tenths. -/
structure Stamp where
  instant : Instant
  tenth   : Fin 10
  deriving DecidableEq, Repr

/-- The 32-bit number an image carries (R151). -/
abbrev Epoch := BitVec 32
/-- The 16-bit number of a round (R12). -/
abbrev RoundNumber := BitVec 16
/-- The byte form of one image record (R186). -/
abbrev Record := List Byte

/-- The two isolated daisy-chains. -/
inductive Chain
  | A
  | B
  deriving DecidableEq, Repr

/-- The four contactor channels. -/
inductive ChannelId
  | K1
  | K2
  | K3
  | K4
  deriving DecidableEq, Repr

/-- The three wake inputs. -/
inductive WakeInput
  | wake1
  | wake2
  | wake3
  deriving DecidableEq, Repr

/-- One thing for each chain. -/
structure PerChain (α : Type) where
  a : α
  b : α
  deriving DecidableEq, Repr

/-- One thing for each contactor channel. -/
structure PerChannel (α : Type) where
  k1 : α
  k2 : α
  k3 : α
  k4 : α
  deriving DecidableEq, Repr

/-- One thing for each wake input. -/
structure PerWake (α : Type) where
  w1 : α
  w2 : α
  w3 : α
  deriving DecidableEq, Repr

def PerChain.get {α : Type} (p : PerChain α) : Chain → α
  | .A => p.a
  | .B => p.b

def PerChain.set {α : Type} (p : PerChain α) (c : Chain) (x : α) : PerChain α :=
  match c with
  | .A => { p with a := x }
  | .B => { p with b := x }

def PerChannel.get {α : Type} (p : PerChannel α) : ChannelId → α
  | .K1 => p.k1
  | .K2 => p.k2
  | .K3 => p.k3
  | .K4 => p.k4

def PerChannel.set {α : Type} (p : PerChannel α) (k : ChannelId) (x : α) : PerChannel α :=
  match k with
  | .K1 => { p with k1 := x }
  | .K2 => { p with k2 := x }
  | .K3 => { p with k3 := x }
  | .K4 => { p with k4 := x }

def PerWake.get {α : Type} (p : PerWake α) : WakeInput → α
  | .wake1 => p.w1
  | .wake2 => p.w2
  | .wake3 => p.w3

def PerWake.set {α : Type} (p : PerWake α) (i : WakeInput) (x : α) : PerWake α :=
  match i with
  | .wake1 => { p with w1 := x }
  | .wake2 => { p with w2 := x }
  | .wake3 => { p with w3 := x }

def PerChain.both {α : Type} (x : α) : PerChain α := ⟨x, x⟩
def PerChannel.four {α : Type} (x : α) : PerChannel α := ⟨x, x, x, x⟩
def PerWake.three {α : Type} (x : α) : PerWake α := ⟨x, x, x⟩

def Chain.all : List Chain := [.A, .B]
def ChannelId.all : List ChannelId := [.K1, .K2, .K3, .K4]
def WakeInput.all : List WakeInput := [.wake1, .wake2, .wake3]

/-- A configuration image: the nine tables of R151, each a list of records in the byte form of R186. -/
structure Image where
  schedule    : List Record
  chainTiming : List Record
  nodePlan    : List Record
  limit       : List Record
  action      : List Record
  contactor   : List Record
  capture     : List Record
  patrol      : List Record
  options     : List Record
  deriving DecidableEq, Repr

/-- A slot nothing has been programmed into, and a slot being erased (R153, R163): its cells are never read. -/
def Image.erased : Image := ⟨[], [], [], [], [], [], [], [], []⟩

end Sys2Proof
end

