-- ==== Sys2Proof/Syntax.lean ====
section
/-! DEFINITION. The commands of the block: one constructor for each row of spec/opcode_table.json.
A request carries the request tag and the argument bytes of R185; a chain frame carries its chain and the
fields left after its check (11.1); a level is a Boolean. -/

namespace Sys2Proof

inductive Instr
  -- exchanges of the Host Link
  /-- HSEL# goes low (R172). -/
  | exchangeBegin
  /-- HSEL# returns high; `inbound` are the bytes clocked on HSDI, as many as left on HSDO (R172). -/
  | exchangeEnd (inbound : List Byte)
  -- requests: a good inbound frame that carries the request (R174 to R176)
  | pass (chain position order tag : Byte) (data : List Byte)
  | status (tag sect : Byte)
  | bridgeReset (tag : Byte)
  | resetExpiry
  | chainStopDrain (tag chain : Byte)
  | chainStopAbort (tag chain : Byte)
  | chainStart (tag chain : Byte)
  | survey (tag chain : Byte)
  | readRound (tag : Byte) (round : RoundNumber)
  | captureNow (tag : Byte)
  | readCapture (tag id part index : Byte)
  | releaseCapture (tag id : Byte)
  | connect (tag : Byte)
  | disconnect (tag : Byte)
  | auxClose (tag : Byte)
  | auxOpen (tag : Byte)
  /-- The cause in the byte form of R185: its kind and its two fields. -/
  | ackTrip (tag kind field1 field2 : Byte)
  | supervise (tag sequence : Byte)
  | sleep (tag : Byte)
  | updateOpen (tag : Byte) (epoch : Epoch)
  | updateStage (tag table index : Byte) (record : Record)
  | readRecord (tag table index source : Byte)
  | updateCommit (tag : Byte) (word : BitVec 32)
  | updateAbort (tag : Byte)
  | tamperClear (tag : Byte)
  -- the schedule and the chains
  | stepExpiry
  /-- A SAMPLE SET that passed its check: its address and its payload (11.1). -/
  | sampleSet (chain : Chain) (address : Byte) (payload : List Byte)
  | sampleSetCheckFailed (chain : Chain) (address : Byte)
  /-- An ANSWER that passed its check, with its start instant (R3). -/
  | answer (chain : Chain) (tag : BitVec 4) (address : Byte) (data : List Byte) (start : Stamp)
  | orderTimeout (chain : Chain)
  | broadcastSettle (chain : Chain)
  | alert (chain : Chain) (address code : Byte)
  | triggerFrameEnd (chain : Chain)
  | collectionDeadline (chain : Chain)
  -- the current stream
  /-- A complete current word: current in bits 31..8, sequence number in bits 7..0 (11.5). -/
  | currentWord (word : BitVec 32)
  | lossTimerExpiry
  -- the contactor drivers
  | pullInExpiry (channel : ChannelId)
  | dropoutExpiry (channel : ChannelId)
  /-- The level at KFBn changes; `closed` is what it now reads. -/
  | feedbackChange (channel : ChannelId) (closed : Bool)
  | debounceExpiry (channel : ChannelId)
  | settleExpiry (channel : ChannelId)
  | holdPwmPeriod (channel : ChannelId)
  -- the Connection Sequencer and the supervision window
  | prechargeMinimumExpiry
  | prechargeMaximumExpiry
  | supervisionExpiry
  -- deep sleep
  | shutExpiry
  | patrolTimerExpiry
  | oscStartEnd
  | nodeWakeEnd
  | wakeInputChange (input : WakeInput) (high : Bool)
  | wakeFilterExpiry (input : WakeInput)
  | sensePulseStart
  | sensePulseSample
  -- the tamper and service inputs
  | tampInputChange (active : Bool)
  | tampFilterExpiry
  | svcInputChange (active : Bool)
  | svcFilterExpiry
  -- the update
  | idleExpiry
  | validationEnd
  | storeFault
  /-- Writing ends; `programmed` is what the cells of the target slot then hold (R163). -/
  | writingEnd (programmed : Image)
  | readbackEnd
  -- resets and start-up
  | por
  | resetLow
  | pinReset
  | resetHigh
  | startupSelectionEnd
  | waitingClaimWithdrawal (chain : Chain)
  deriving DecidableEq, Repr

end Sys2Proof
end

