-- ==== Sys2Proof/WellFormed.lean ====
section
/-! DEFINITION. What the lines of the block can carry: the bounds of chapter 11 on the operands of a command.
The meanings are total and do not ask for it; the statements about frames do. -/

namespace Sys2Proof

/-- The record lengths of the nine tables in canonical order (R186). -/
def Image.lengths : List (List Nat) :=
  [List.replicate 16 6, List.replicate 2 10, List.replicate 32 3 ++ [2, 2], List.replicate 64 18,
   List.replicate 16 2, [9, 9, 9, 9, 23], [2], [19], [2]]

/-- The nine tables in canonical order (R151). -/
def Image.tables (i : Image) : List (List Record) :=
  [i.schedule, i.chainTiming, i.nodePlan, i.limit, i.action, i.contactor, i.capture, i.patrol, i.options]

/-- The image has 140 records of the lengths of R186. -/
def Image.wf (i : Image) : Bool :=
  i.tables.map (fun t => t.map List.length) == Image.lengths

/-- The bounds of chapter 11: an inbound frame has at most 2048 bytes (R174), so a PASS carries at most 2039
data bytes and an UPDATE_STAGE a record of at most 2039; an ANSWER carries at most 64 data bytes and a SAMPLE SET
at most 44 payload bytes (11.1); a slot holds 140 records (R153). -/
def Instr.wf : Instr → Bool
  | .pass _ _ _ _ data => data.length ≤ 2039
  | .updateStage _ _ _ record => record.length ≤ 2039
  | .sampleSet _ _ payload => payload.length ≤ 44
  | .answer _ _ _ data _ => data.length ≤ 64
  | .writingEnd programmed => programmed.wf
  | .exchangeBegin | .exchangeEnd _ | .status _ _ | .bridgeReset _ | .resetExpiry | .chainStopDrain _ _
  | .chainStopAbort _ _ | .chainStart _ _ | .survey _ _ | .readRound _ _ | .captureNow _ | .readCapture _ _ _ _
  | .releaseCapture _ _ | .connect _ | .disconnect _ | .auxClose _ | .auxOpen _ | .ackTrip _ _ _ _
  | .supervise _ _ | .sleep _ | .updateOpen _ _ | .readRecord _ _ _ _ | .updateCommit _ _ | .updateAbort _
  | .tamperClear _ | .stepExpiry | .sampleSetCheckFailed _ _ | .orderTimeout _ | .broadcastSettle _ | .alert _ _ _
  | .triggerFrameEnd _ | .collectionDeadline _ | .currentWord _ | .lossTimerExpiry | .pullInExpiry _
  | .dropoutExpiry _ | .feedbackChange _ _ | .debounceExpiry _ | .settleExpiry _ | .holdPwmPeriod _
  | .prechargeMinimumExpiry | .prechargeMaximumExpiry | .supervisionExpiry | .shutExpiry | .patrolTimerExpiry
  | .oscStartEnd | .nodeWakeEnd | .wakeInputChange _ _ | .wakeFilterExpiry _ | .sensePulseStart
  | .sensePulseSample | .tampInputChange _ | .tampFilterExpiry | .svcInputChange _ | .svcFilterExpiry
  | .idleExpiry | .validationEnd | .storeFault | .readbackEnd | .por | .resetLow | .pinReset | .resetHigh
  | .startupSelectionEnd | .waitingClaimWithdrawal _ => true

end Sys2Proof
end

