-- ==== Sys2Proof/Decode.lean ====
section
/-! DEFINITION. The inbound frames of the Host Link in the byte form of 11.2, read (R174, R176, R184, R185) and
written; and the host's table decoder, whose rows give no bits. -/

namespace Sys2Proof

/-- spec/opcode_table.json gives no row any bits, so no word spells a command. -/
def decodeTableWord (_nbits _w : Nat) : Option Instr := none

/-! ### CRC-16 (R184): polynomial 1021h, initial value FFFFh, most significant bit first -/

def crc16Bit (c : BitVec 16) : BitVec 16 :=
  if c.msb then (c <<< 1) ^^^ 0x1021#16 else c <<< 1

def crc16Byte (c : BitVec 16) (b : Byte) : BitVec 16 :=
  let c := c ^^^ (b.zeroExtend 16 <<< 8)
  crc16Bit (crc16Bit (crc16Bit (crc16Bit (crc16Bit (crc16Bit (crc16Bit (crc16Bit c)))))))

def crc16 (bytes : List Byte) : BitVec 16 := bytes.foldl crc16Byte 0xFFFF#16

/-- The two bytes of a 16-bit field, most significant first. -/
def bytes16 (x : BitVec 16) : List Byte := [(x >>> 8).truncate 8, x.truncate 8]

/-- The four bytes of a 32-bit field, most significant first. -/
def bytes32 (x : BitVec 32) : List Byte :=
  [(x >>> 24).truncate 8, (x >>> 16).truncate 8, (x >>> 8).truncate 8, x.truncate 8]

def word16 (h l : Byte) : BitVec 16 := h ++ l
def word32 (a b c d : Byte) : BitVec 32 := a ++ b ++ c ++ d

/-- A Host Link frame (11.2.2): kind, payload length, payload, CRC-16 over all three. -/
def linkFrame (kind : Byte) (payload : List Byte) : List Byte :=
  let body := kind :: bytes16 (BitVec.ofNat 16 payload.length) ++ payload
  body ++ bytes16 (crc16 body)

/-! ### Reading -/

/-- What the Host Link Port makes of the inbound bytes of an exchange (R174, R176, R184). -/
inductive Inbound
  /-- No inbound frame: the first byte is 00h (R172), or no whole byte was clocked (the model's choice, entry 60). -/
  | none
  /-- The frame fails its check. -/
  | failed
  /-- A good MANAGE frame whose code or argument length no request has: answered BAD_ARGUMENT at once (R176). -/
  | badRequest (tag : Byte)
  /-- A good frame that carries this request. -/
  | request (i : Instr)
  deriving DecidableEq, Repr

/-- R185: the request a code names with its argument bytes; codes as in 11.2.2, note 1. CHAIN_STOP with a mode that is
neither DRAIN nor ABORT is answered BAD_ARGUMENT (R43). -/
def decodeRequest (code tag : Byte) (args : List Byte) : Inbound :=
  match code.toNat, args with
  | 0x01, [s] => .request (.status tag s)
  | 0x02, [] => .request (.bridgeReset tag)
  | 0x03, [c, m] =>
    if m = 0x01#8 then .request (.chainStopDrain tag c)
    else if m = 0x02#8 then .request (.chainStopAbort tag c)
    else .badRequest tag
  | 0x04, [c] => .request (.chainStart tag c)
  | 0x05, [c] => .request (.survey tag c)
  | 0x06, [h, l] => .request (.readRound tag (word16 h l))
  | 0x07, [] => .request (.captureNow tag)
  | 0x08, [i, p, n] => .request (.readCapture tag i p n)
  | 0x09, [i] => .request (.releaseCapture tag i)
  | 0x0A, [] => .request (.connect tag)
  | 0x0B, [] => .request (.disconnect tag)
  | 0x0C, [] => .request (.auxClose tag)
  | 0x0D, [] => .request (.auxOpen tag)
  | 0x0E, [k, f, g] => .request (.ackTrip tag k f g)
  | 0x0F, [n] => .request (.supervise tag n)
  | 0x10, [] => .request (.sleep tag)
  | 0x11, [a, b, c, d] => .request (.updateOpen tag (word32 a b c d))
  | 0x12, t :: i :: r => .request (.updateStage tag t i r)
  | 0x13, [t, i, s] => .request (.readRecord tag t i s)
  | 0x14, [a, b, c, d] => .request (.updateCommit tag (word32 a b c d))
  | 0x15, [] => .request (.updateAbort tag)
  | 0x16, [] => .request (.tamperClear tag)
  | _, _ => .badRequest tag

/-- A payload whose frame passed its check (R176, R184). -/
def decodePayload (kind : Byte) (payload : List Byte) : Inbound :=
  if kind = 0x01#8 then
    match payload with
    | code :: tag :: args => decodeRequest code tag args
    | _ => .failed
  else
    match payload with
    | chain :: position :: order :: tag :: data => .request (.pass chain position order tag data)
    | _ => .failed

/-- R172, R174, R184: the inbound bytes of an exchange. Bytes after the frame's last are disregarded. That an exchange in which no
whole byte was clocked carries no inbound frame, rather than one that fails its check, is the model's choice (DESIGN CHOICE, entry 60). -/
def decodeInbound (bytes : List Byte) : Inbound :=
  match bytes with
  | [] => .none
  | kind :: rest =>
    if kind = 0x00#8 then .none
    else if kind ≠ 0x01#8 ∧ kind ≠ 0x02#8 then .failed
    else
      match rest with
      | h :: l :: more =>
        let n := (word16 h l).toNat
        if 2043 < n then .failed
        else if more.length < n + 2 then .failed
        else if bytes16 (crc16 (kind :: h :: l :: more.take n)) ≠ (more.drop n).take 2 then .failed
        else decodePayload kind (more.take n)
      | _ => .failed

/-! ### Writing -/

/-- The kind and payload of the frame that carries a request (R185), absent for a command that is no request. -/
def encodePayload : Instr → Option (Byte × List Byte)
  | .pass c p o t d => some (0x02#8, c :: p :: o :: t :: d)
  | .status t s => some (0x01#8, [0x01#8, t, s])
  | .bridgeReset t => some (0x01#8, [0x02#8, t])
  | .chainStopDrain t c => some (0x01#8, [0x03#8, t, c, 0x01#8])
  | .chainStopAbort t c => some (0x01#8, [0x03#8, t, c, 0x02#8])
  | .chainStart t c => some (0x01#8, [0x04#8, t, c])
  | .survey t c => some (0x01#8, [0x05#8, t, c])
  | .readRound t n => some (0x01#8, [0x06#8, t] ++ bytes16 n)
  | .captureNow t => some (0x01#8, [0x07#8, t])
  | .readCapture t i p n => some (0x01#8, [0x08#8, t, i, p, n])
  | .releaseCapture t i => some (0x01#8, [0x09#8, t, i])
  | .connect t => some (0x01#8, [0x0A#8, t])
  | .disconnect t => some (0x01#8, [0x0B#8, t])
  | .auxClose t => some (0x01#8, [0x0C#8, t])
  | .auxOpen t => some (0x01#8, [0x0D#8, t])
  | .ackTrip t k f g => some (0x01#8, [0x0E#8, t, k, f, g])
  | .supervise t n => some (0x01#8, [0x0F#8, t, n])
  | .sleep t => some (0x01#8, [0x10#8, t])
  | .updateOpen t e => some (0x01#8, [0x11#8, t] ++ bytes32 e)
  | .updateStage t b i r => some (0x01#8, 0x12#8 :: t :: b :: i :: r)
  | .readRecord t b i s => some (0x01#8, [0x13#8, t, b, i, s])
  | .updateCommit t w => some (0x01#8, [0x14#8, t] ++ bytes32 w)
  | .updateAbort t => some (0x01#8, [0x15#8, t])
  | .tamperClear t => some (0x01#8, [0x16#8, t])
  | _ => none

/-- The inbound bytes that carry a request. -/
def encodeInbound (i : Instr) : Option (List Byte) :=
  (encodePayload i).map fun p => linkFrame p.1 p.2

/-- The commands that are requests of the host. -/
def Instr.isRequest (i : Instr) : Bool := (encodePayload i).isSome

end Sys2Proof
end

