-- ==== Sys2Proof/Machine/Types.lean ====
section
/-! DEFINITION. The data of the blocks: what the tables of chapters 1 to 10 list, under the manual's names. -/

namespace Sys2Proof.Machine

/-! ### Operating states (00_scope.md 3.1, R135, R138, R142, R148) -/

inductive OpState
  | unconfigured
  | run
  | entering
  | asleep
  | patrol
  | waking
  deriving DecidableEq, Repr

inductive Phase
  | draining
  | resting
  | oscStart
  | rousing
  | nodeWake
  | round
  | wakeRound
  deriving DecidableEq, Repr

/-! ### Cycle Scheduler (R5) -/

inductive CursorState
  | stopped
  | starting
  | running
  | stopping
  deriving DecidableEq, Repr

structure Cursor where
  state  : CursorState
  step   : Nat
  start  : Instant
  cycles : BitVec 32
  deriving DecidableEq, Repr

inductive SampleKind
  | cells
  | temps
  | both
  deriving DecidableEq, Repr

/-- The step field of a round record (R14). -/
inductive RoundStep
  | step (index : Nat)
  | wake
  | patrol
  deriving DecidableEq, Repr

/-! ### Round records (R14) -/

inductive PartState
  | waiting
  | sent
  | missed
  | stopped
  deriving DecidableEq, Repr

inductive EndCause
  | complete
  | deadline
  | aborted
  deriving DecidableEq, Repr

inductive ReadingStatus
  | ok
  | missing
  | checkFailed
  | unaligned
  deriving DecidableEq, Repr

/-- A node entry of a chain part. -/
structure Reading where
  position   : Nat
  status     : ReadingStatus
  cells      : List (BitVec 16)
  temps      : List (BitVec 16)
  nodeReset  : Bool
  localFault : Bool
  deriving DecidableEq, Repr

/-- The current entry of a chain part (R58): the chosen word's value and the skew in µs. -/
structure CurrentEntry where
  value : BitVec 24
  skew  : Int
  deriving DecidableEq, Repr

structure ChainPart where
  chain    : Chain
  state    : PartState
  actual   : Option Instant
  lateness : Option (BitVec 32)
  endCause : Option EndCause
  readings : List Reading
  current  : Option CurrentEntry
  deriving DecidableEq, Repr

inductive Verdict
  | within
  | violate
  | unknown
  deriving DecidableEq, Repr

inductive LimitChange
  | trip
  | release
  deriving DecidableEq, Repr

structure VerdictItem where
  entry   : Nat
  verdict : Verdict
  change  : Option LimitChange
  deriving DecidableEq, Repr

structure RoundRecord where
  number   : RoundNumber
  step     : RoundStep
  kind     : SampleKind
  report   : Bool
  epoch    : Epoch
  planned  : Instant
  parts    : List ChainPart
  verdicts : List VerdictItem
  closed   : Bool
  holders  : Nat
  reported : Bool
  deriving DecidableEq, Repr

/-! ### Chain Ports (chapter 2) -/

inductive NodeState
  | unsurveyed
  | active
  | missing
  | lost
  | resting
  deriving DecidableEq, Repr

structure NodeEntry where
  position   : Nat
  cells      : Nat
  temps      : Nat
  state      : NodeState
  saved      : Option NodeState
  latency    : Option (BitVec 16)
  holdoff    : Option (BitVec 16)
  missCount  : Nat
  localFault : Bool
  deriving DecidableEq, Repr

/-- Who an order in a queue or in flight belongs to (R31). -/
inductive OrderOwner
  | pass (tag : Byte)
  | echo
  | setHoldoff (value : BitVec 16)
  | rest
  | rouse
  deriving DecidableEq, Repr

/-- An order waiting to go down: position 0 is the broadcast address. -/
structure Order where
  position : Nat
  code     : Byte
  data     : List Byte
  owner    : OrderOwner
  deriving DecidableEq, Repr

/-- The transaction in flight (R36): a TRIGGER lasts until its chain part ends, an ORDER to one position until its
answer or its timeout instant, a broadcast until its settle instant. -/
inductive Transaction
  | trigger
  | order (o : Order) (tag : BitVec 4) (ended timeout : Instant)
  | broadcast (o : Order) (settle : Instant)
  deriving DecidableEq, Repr

structure KeptTag where
  tag      : BitVec 4
  position : Nat
  passTag  : Byte
  deriving DecidableEq, Repr

inductive SurveyState
  | idle
  | echoing (position : Nat)
  | writing (position : Nat)
  deriving DecidableEq, Repr

inductive SurveyOutcome
  | complete
  | aborted
  deriving DecidableEq, Repr

structure SurveyResult where
  aligned    : List Nat
  notAligned : List Nat
  outcome    : SurveyOutcome
  deriving DecidableEq, Repr

inductive ChainRun
  | running
  | draining
  | stopped
  deriving DecidableEq, Repr

inductive Marker
  | internal
  | forward
  deriving DecidableEq, Repr

/-- What a Chain Port has received of an upward frame (R183): nothing, as it hunts for the delimiter, or the start instant
of the delimiter (R3) and the bytes that followed it. -/
inductive Reception
  | hunting
  | frame (start : Stamp) (bytes : List Byte)
  deriving DecidableEq, Repr

/-- The state of a Chain Port (chapter 2, R183); `resting` is set from the end of a REST to the end of a ROUSE (R29). -/
structure ChainPort where
  table         : List NodeEntry
  resting       : Bool
  internal      : List Order
  forward       : List Order
  transaction   : Option Transaction
  tagCounter    : BitVec 4
  kept          : List KeptTag
  survey        : SurveyState
  surveyPending : Bool
  aligned       : List Nat
  notAligned    : List Nat
  lastSurvey    : Option SurveyResult
  run           : ChainRun
  marker        : Marker
  reception     : Reception
  deriving DecidableEq, Repr

/-! ### Current Stream Input (chapter 3) -/

inductive StreamState
  | absent
  | live
  | lost
  deriving DecidableEq, Repr

structure CurrentSample where
  value     : BitVec 24
  sequence  : Byte
  arrival   : Instant
  gap       : Bool
  spanStart : Bool
  deriving DecidableEq, Repr

/-- The state of the Current Stream Input (chapter 3); `bits` are the bits clocked in since the strobe became active, 32 at
most, the first at the head (R51). -/
structure CurrentStream where
  history    : List CurrentSample
  state      : StreamState
  lossExpiry : Option Instant
  bits       : List Bool
  deriving DecidableEq, Repr

/-- R59: the value, the sequence number and the arrival instant of the newest entry of the current span. -/
structure LatestCurrent where
  value    : BitVec 24
  sequence : Byte
  arrival  : Instant
  deriving DecidableEq, Repr

/-- The latest current with the stream state (R59). -/
structure CurrentReport where
  latest : Option LatestCurrent
  state  : StreamState
  deriving DecidableEq, Repr

/-! ### Causes (R74, R89) -/

inductive FaultKind
  | stuck
  | dropped
  | welded
  deriving DecidableEq, Repr

inductive Cause
  | limit (entry : Nat)
  | node (chain : Chain) (position : Nat)
  | current
  | supervision
  | contactor (channel : ChannelId) (fault : FaultKind)
  | tamper
  deriving DecidableEq, Repr

inductive CaptureCause
  | action (cause : Cause)
  | host
  | underLoad (channel : ChannelId)
  deriving DecidableEq, Repr

/-! ### Limit Evaluator (chapter 4) -/

inductive Quantity
  | cell
  | temp
  | spread
  | current
  deriving DecidableEq, Repr

inductive RunState
  | normal
  | tripped
  deriving DecidableEq, Repr

/-- What changed a run state (R69): a round by its number, a word by its sequence number and arrival instant. -/
inductive LimitSource
  | round (number : RoundNumber)
  | word (sequence : Byte) (arrival : Instant)
  deriving DecidableEq, Repr

structure LastChange where
  change : LimitChange
  source : LimitSource
  epoch  : Epoch
  deriving DecidableEq, Repr

structure LimitRun where
  state      : RunState
  count      : Nat
  lastChange : Option LastChange
  deriving DecidableEq, Repr

/-- A covered value with its place (R64). -/
structure Located where
  chain    : Chain
  position : Nat
  channel  : Nat
  value    : Int
  deriving DecidableEq, Repr

/-- What a TRIP notice shows of the violation (R71). -/
inductive TripDetail
  | value (found : Located)
  | spread (spread : Int) (largest smallest : Located)
  | current (value : BitVec 24)
  deriving DecidableEq, Repr

/-! ### Capture Unit (chapter 5) -/

inductive HeldKind
  | pre
  | post
  deriving DecidableEq, Repr

structure HeldRound where
  number  : RoundNumber
  kind    : HeldKind
  dropped : Bool
  deriving DecidableEq, Repr

/-! ### Contactor Drivers (chapter 6) -/

inductive Role
  | neg
  | pre
  | pos
  | aux
  deriving DecidableEq, Repr

inductive ChannelState
  | opened
  | pullIn
  | hold
  | dropout
  deriving DecidableEq, Repr

inductive Requester
  | sequencer
  | action (cause : Cause)
  deriving DecidableEq, Repr

/-- The record of R111. -/
structure LastOpening where
  instant   : Instant
  requester : Requester
  left      : ChannelState
  current   : CurrentReport
  underLoad : Bool
  deriving DecidableEq, Repr

/-- The record of R110. -/
structure LastFault where
  kind    : FaultKind
  instant : Instant
  found   : ChannelState
  current : CurrentReport
  deriving DecidableEq, Repr

/-- The items of R101. -/
structure Channel where
  state           : ChannelState
  phaseExpiry     : Option Instant
  rawClosed       : Bool
  debouncedClosed : Bool
  debounceExpiry  : Option Instant
  stuck           : Bool
  dropped         : Bool
  welded          : Bool
  lastOpening     : Option LastOpening
  lastFault       : Option LastFault
  settleExpiry    : Option Instant
  deriving DecidableEq, Repr

/-- A hold PWM period in progress (R106), in µs. -/
structure PwmPeriod where
  start  : Instant
  period : Nat
  onTime : Nat
  deriving DecidableEq, Repr

/-- The coil drive as the channel state calls for it (R106). -/
structure Drive where
  on  : Bool
  pwm : Option PwmPeriod
  deriving DecidableEq, Repr

/-- Why a channel changed (R113). -/
inductive ChangeReason
  | close
  | pullInEnd
  | openRequest (requester : Requester)
  | stuck
  | dropped
  | dropoutEnd
  | feedback
  deriving DecidableEq, Repr

inductive CloseAnswer
  | taken
  | already
  | refused
  deriving DecidableEq, Repr

/-! ### Connection Sequencer and supervision window (chapter 7) -/

inductive SeqState
  | idle
  | negClosing
  | precharging
  | posClosing
  | preReleasing
  | connected
  | disconnecting
  | tripped
  | failed
  deriving DecidableEq, Repr

inductive FailReason
  | fault (kind : FaultKind) (channel : ChannelId)
  | prechargeTimeout
  | inhibited
  deriving DecidableEq, Repr

inductive SeqOutcome
  | connected
  | failed (reason : FailReason)
  | aborted
  | tripped
  | disconnected
  deriving DecidableEq, Repr

structure Precharge where
  start : Instant
  ended : Instant
  words : Nat
  deriving DecidableEq, Repr

/-- The items of R117; `minimumTaken` is the model's own (R121). -/
structure Sequencer where
  state             : SeqState
  prechargeStart    : Option Instant
  minimumExpiry     : Option Instant
  maximumExpiry     : Option Instant
  goodWords         : Nat
  tripCause         : Option Cause
  disconnectPending : Bool
  lastOutcome       : Option (SeqOutcome × Instant)
  lastPrecharge     : Option Precharge
  minimumTaken      : Bool
  deriving DecidableEq, Repr

inductive SupervisionFault
  | early
  | sequence
  | timeout
  deriving DecidableEq, Repr

/-- The items of R131; `earlyIsWmin` says which of Wmin and 0 the early bound is. -/
structure Window where
  armed       : Bool
  reference   : Option Instant
  earlyIsWmin : Bool
  expiry      : Option Instant
  lastGood    : Option Byte
  faults      : Nat
  deriving DecidableEq, Repr

/-- The judgement of a SUPERVISE (R132). -/
inductive Judgement
  | disarmed
  | good
  | early
  | sequence
  deriving DecidableEq, Repr

structure ContactorSnapshot where
  role            : Option Role
  state           : ChannelState
  stuck           : Bool
  dropped         : Bool
  welded          : Bool
  debouncedClosed : Bool
  deriving DecidableEq, Repr

/-- A capture with the fields of 5.3. -/
structure Capture where
  id            : Byte
  cause         : CaptureCause
  instant       : Instant
  epoch         : Epoch
  pre           : Nat
  post          : Nat
  anchor        : Option RoundNumber
  held          : List HeldRound
  samples       : List CurrentSample
  stream        : StreamState
  contactors    : PerChannel ContactorSnapshot
  sequencer     : SeqState
  complete      : Bool
  deriving DecidableEq, Repr

/-- What the HEADER part of READ_CAPTURE carries (R94): of the current snapshot the number of entries, the stream state and, as
R53 has it, the newest entry (entry 56), and not the entries. -/
structure CaptureHeader where
  id         : Byte
  cause      : CaptureCause
  instant    : Instant
  epoch      : Epoch
  pre        : Nat
  post       : Nat
  complete   : Bool
  anchor     : Option RoundNumber
  entries    : Nat
  stream     : StreamState
  newest     : Option CurrentSample
  contactors : PerChannel ContactorSnapshot
  sequencer  : SeqState
  held       : List HeldRound
  deriving DecidableEq, Repr

structure CaptureUnit where
  list        : List Capture
  nextId      : Byte
  lastRefusal : Option (CaptureCause × Instant)
  deriving DecidableEq, Repr

/-! ### Sleep Controller (chapter 8) -/

inductive WakeCause
  | input (i : WakeInput)
  | hostSelect
  | chainAlert
  | tamper
  | breach
  | patrolMiss
  deriving DecidableEq, Repr

/-- The latched cause set: one flag for each of the eight causes (R135, R147). -/
structure WakeSet where
  inputs     : PerWake Bool
  hostSelect : Bool
  chainAlert : Bool
  tamper     : Bool
  breach     : Bool
  patrolMiss : Bool
  deriving DecidableEq, Repr

/-- A running patrol timer: its next expiry and the microseconds left, which it counts by itself (R1). -/
structure PatrolTimer where
  next : Instant
  left : Nat
  deriving DecidableEq, Repr

/-- A wake input tracker (R135, R144, R145); `filtered` is absent while inactive and before the first pulsed sample;
`last` and `previous` are the last two pulsed samples (entry 36). -/
structure Tracker where
  filtered      : Option Bool
  pending       : Option Bool
  pendingExpiry : Option Instant
  last          : Option Bool
  previous      : Option Bool
  deriving DecidableEq, Repr

/-- The fields of a WOKE notice and of the last wake record (R149). -/
structure WakeRecord where
  causes       : WakeSet
  sleepInstant : Option Instant
  wakingSince  : Option Instant
  patrolCount  : Nat
  missCount    : Nat
  deriving DecidableEq, Repr

/-- The items of R135. -/
structure SleepController where
  op           : OpState
  phase        : Option Phase
  latched      : WakeSet
  patrolTimer  : Option PatrolTimer
  missCount    : Nat
  patrolCount  : Nat
  trackers     : PerWake Tracker
  shutExpiry   : Option Instant
  sleepInstant : Option Instant
  lastWake     : Option WakeRecord
  deriving DecidableEq, Repr

/-- What the rules of chapter 8 imply beside R135: the expiry of OSC_START or NODE_WAKE, the chains whose REST or
ROUSE is still to end, the chains roused in this patrol, the instant WAKING began, SENSE_OUT and its pulse. -/
structure SleepWork where
  phaseExpiry : Option Instant
  awaiting    : PerChain Bool
  roused      : PerChain Bool
  wakingSince : Option Instant
  senseOut    : Bool
  pulseStart  : Option Instant
  deriving DecidableEq, Repr

/-! ### Update Engine and Image Store (chapter 9) -/

inductive Slot
  | A
  | B
  deriving DecidableEq, Repr

inductive SlotState
  | erased
  | writing
  | valid
  | invalid
  deriving DecidableEq, Repr

structure SlotContents where
  state : SlotState
  epoch : Epoch
  check : BitVec 32
  image : Image
  deriving DecidableEq, Repr

/-- The nonvolatile store of R153. -/
structure ImageStore where
  slotA      : SlotContents
  slotB      : SlotContents
  floor      : Epoch
  tamperFlag : Bool
  identity   : BitVec 64
  deriving DecidableEq, Repr

inductive UpdateState
  | closed
  | opened
  | validating
  | writing
  | verifying
  | applyPending
  deriving DecidableEq, Repr

inductive CommitFailure
  | verify
  | aborted
  | tamper
  deriving DecidableEq, Repr

inductive UpdateOutcome
  | commitDone (epoch : Epoch)
  | commitFailed (reason : CommitFailure)
  | windowClosed
  deriving DecidableEq, Repr

/-- The items of R156. -/
structure UpdateEngine where
  state       : UpdateState
  staging     : Option Image
  stagedEpoch : Option Epoch
  idleExpiry  : Option Instant
  target      : Option Slot
  latch       : Bool
  lastOutcome : Option (UpdateOutcome × Instant)
  deriving DecidableEq, Repr

/-- The commit in progress: whose REPLY is owed (R161), the word it named, the word kept at validation (R162), the
bound of the phase (R161, R163, R164) and a fault the store has reported (R164). -/
structure CommitWork where
  tag        : Option Byte
  word       : BitVec 32
  kept       : BitVec 32
  bound      : Option Instant
  storeFault : Bool
  deriving DecidableEq, Repr

/-- The 1 ms filter of TAMP# or SVC# (R168); `active` is the filtered level. -/
structure InputFilter where
  running       : Bool
  active        : Bool
  pending       : Option Bool
  pendingExpiry : Option Instant
  deriving DecidableEq, Repr

/-- The working copies of R152, held once as the image they came from. -/
structure Working where
  image : Image
  epoch : Epoch
  slot  : Slot
  deriving DecidableEq, Repr

/-! ### Outbound frames (chapter 10, chapter 11) -/

/-- The status codes of a REPLY, in the order of their codes (11.2.2, note 2). -/
inductive ReplyStatus
  | done
  | accepted
  | busy
  | refusedState
  | badArgument
  | locked
  | noSuch
  | noAnswer
  | chainStopped
  deriving DecidableEq, Repr

/-- The reasons of R185 with their further bytes. -/
inductive Reason
  | state
  | inhibited
  | current
  | welded
  | settle
  | contactor
  | sequencer
  | update
  | capture
  | survey
  | pass
  | service
  | tamper
  | table
  | field (offset : Byte)
  | steps (table index : Byte)
  | width (table index : Byte)
  | scope (table index : Byte)
  | actionIndex (table index : Byte)
  | roles (table index : Byte)
  | window (table index : Byte)
  | precharge (table index : Byte)
  | check
  deriving DecidableEq, Repr

inductive LinkState
  | shut
  | opened
  | closing
  | resetting
  deriving DecidableEq, Repr

inductive StopMode
  | drain
  | abort
  deriving DecidableEq, Repr

structure CaptureSummary where
  id       : Byte
  cause    : CaptureCause
  complete : Bool
  anchor   : Option RoundNumber
  held     : Nat
  deriving DecidableEq, Repr

/-- The contents of a STATUS section (R180). -/
inductive StatusSection
  | general (op : OpState) (phase : Option Phase) (cursor : Cursor) (roundCounter : RoundNumber) (link : LinkState)
      (answers unsolicited owed : Nat) (unsolicitedDiscard : Bool)
  | chain (c : Chain) (run : ChainRun) (table : List NodeEntry) (survey : SurveyState) (pending : Bool)
      (aligned notAligned : List Nat) (last : Option SurveyResult) (tagCounter : BitVec 4) (marker : Marker)
      (internal forward : Nat) (inFlight : Bool)
  | current (state : StreamState) (newest : Option CurrentSample) (entries : Nat)
  | limits (runs : List LimitRun)
  | ring (records : Nat) (oldest newest : Option RoundNumber) (collecting held : List RoundNumber)
      (unreported : Option RoundNumber) (captures : List CaptureSummary) (nextId : Byte)
      (lastRefusal : Option (CaptureCause × Instant))
  | contactors (channels : PerChannel Channel) (roles : PerChannel (Option Role)) (sequencer : Sequencer)
      (inhibit : List Cause) (window : Window)
  | sleep (controller : SleepController)
  | update (state : UpdateState) (stagedEpoch : Option Epoch) (idleExpiry : Option Instant) (target : Option Slot)
      (latch : Bool) (lastOutcome : Option (UpdateOutcome × Instant)) (slotA slotB : SlotState × Epoch × BitVec 32)
      (floor : Epoch) (tamperFlag : Bool) (identity : BitVec 64) (tampActive svcActive : Bool)
      (workingEpoch : Epoch) (workingSlot : Option Slot)
  deriving DecidableEq, Repr

/-- The result data of a REPLY. -/
inductive ResultData
  | none
  | reason (r : Reason)
  | round (r : RoundRecord)
  | roundPart (index : Byte) (r : RoundRecord)
  | record (r : Record)
  | captureId (id : Byte)
  | captureHeader (h : CaptureHeader)
  | currentBlock (samples : List CurrentSample)
  | causesLeft (count : Nat)
  | supervision (judgement : Judgement) (faults : Nat) (expected : Option Byte)
  | updateOpened (floor working : Epoch)
  | status (instant : Instant) (epoch : Epoch) (contents : StatusSection)
  deriving DecidableEq, Repr

/-- The NOTICE kinds in the order of their codes (11.2.2, note 3), with the fields their rules give. -/
inductive Notice
  | trip (entry : Nat) (quantity : Quantity) (source : LimitSource) (step : Option RoundStep) (epoch : Epoch)
      (detail : Option TripDetail)
  | release (entry : Nat) (quantity : Quantity) (source : LimitSource) (step : Option RoundStep) (epoch : Epoch)
  | nodeLost (chain : Chain) (position missCount : Nat)
  | nodeBack (chain : Chain) (position : Nat)
  | nodeUnaligned (chain : Chain) (position : Nat) (round : RoundNumber)
  | alert (chain : Chain) (position : Byte) (wakeRequest : Bool)
  | surveyDone (chain : Chain) (result : SurveyResult)
  | chainStopped (chain : Chain) (mode : StopMode)
  | currentLost (current : CurrentReport)
  | currentBack (value : BitVec 24) (sequence : Byte) (arrival : Instant)
  | contactor (channel : ChannelId) (role : Option Role) (before after : ChannelState) (reason : ChangeReason)
      (stuck dropped welded : Bool) (underLoad : Bool) (current : CurrentReport)
  | sequence (outcome : SeqOutcome) (instant : Instant) (left : Option SeqState) (precharge : Option Precharge)
      (tripCause : Option Cause) (goodWords : Option Nat) (current : Option CurrentReport)
  | supervisionFault (kind : SupervisionFault) (instant : Instant) (expected : Option Byte) (faults : Nat)
  | supervisionLoss (instant : Instant) (kind : SupervisionFault)
  | captureDone (id : Byte) (cause : CaptureCause) (anchor : Option RoundNumber) (held : Nat)
  | captureRefused (cause : CaptureCause)
  | commitDone (epoch previous : Epoch) (cycles : BitVec 32)
  | commitFailed (reason : CommitFailure) (epoch : Option Epoch)
  | windowClosed (epoch : Option Epoch)
  | tamper (before : UpdateState)
  | woke (record : WakeRecord)
  deriving DecidableEq, Repr

/-- The frames the bridge sends to the host (10.4). -/
inductive Outbound
  | reply (tag : Byte) (status : ReplyStatus) (result : ResultData)
  | relay (passTag : Byte) (chain : Chain) (position : Nat) (late : Bool) (data : List Byte)
  | roundReport (record : RoundRecord)
  | notice (n : Notice)
  deriving DecidableEq, Repr

/-- A frame in the outbound queue; `final` marks the DONE of a SLEEP (R139) or of a BRIDGE_RESET (R181). -/
structure Queued where
  frame : Outbound
  final : Bool
  deriving DecidableEq, Repr

/-- Under which link an exchange runs: one that is not SHUT, one that was SHUT when it began, or one that began
before the shut and continues under the closing phase (R139). -/
inductive ExchangeKind
  | live
  | shut
  | closing
  deriving DecidableEq, Repr

/-- The exchange in progress (R172): the status byte and the head frame chosen when HSEL# went low, the bits sampled on HSDI,
the first at the head, and the level of HSCK. -/
structure Exchange where
  kind   : ExchangeKind
  status : Byte
  frame  : Option Queued
  bits   : List Bool
  clock  : Bool
  deriving DecidableEq, Repr

/-- The state of the Host Link Port (chapter 10). -/
structure HostLink where
  state              : LinkState
  queue              : List Queued
  owed               : Nat
  lastDiscarded      : Bool
  lastCheckFailed    : Bool
  unsolicitedDiscard : Bool
  resetExpiry        : Option Instant
  hwake              : Bool
  exchange           : Option Exchange
  deriving DecidableEq, Repr

/-! ### Pins (11.5) -/

/-- RESET#: high, low for a number of µs, or held low after a pin reset began (R182). The low time is counted and not
held as an instant, which a reset would leave without a meaning (R2). -/
inductive ResetPin
  | high
  | low (elapsed : Nat)
  | held
  deriving DecidableEq, Repr

/-- The levels at the inputs: a feedback input that reads closed, a high wake input, an active TAMP#, SVC# or CSFS. -/
structure Pins where
  kfb   : PerChannel Bool
  wake  : PerWake Bool
  tamp  : Bool
  svc   : Bool
  csfs  : Bool
  reset : ResetPin
  deriving DecidableEq, Repr

end Sys2Proof.Machine
end

