-- ==== Sys2Proof/Config.lean ====
section
/-! DEFINITION. The free values: what the manual leaves open. Each is an opaque constant, so that a claim about
the machine holds whatever it is. -/

namespace Sys2Proof.Config

/-- The choices the manual leaves open inside one event (R56, R75, R124): the n-th choice drawn. Entry 3. -/
opaque freeChoice : Nat → Nat

/-- The payload of a NOTICE after its kind code, whose byte form the manual does not give. Entry 5. -/
opaque noticeFields : Machine.Notice → List Byte

/-- The result data of a REPLY whose byte form the manual does not give. Entry 5. -/
opaque resultFields : Machine.ResultData → List Byte

/-- The answer timeout in µs of a PASS to a position, granted while UNCONFIGURED, where there is no Chain Timing
(R36). Entry 6. -/
opaque unconfiguredTimeout : Nat → BitVec 31

/-- The bytes after the marker of an empty record of the blank image (R157). Entry 7. -/
opaque blankFill : Byte

/-- The record index STEPS reports when no enabled step is a TRIGGER (R161). Entry 8. -/
opaque noTriggerIndex : Byte

/-- Which field of a disordered pair is the failing one (R158): the second when true. Entry 8. -/
opaque disorderAtSecond : Bool

/-- What stands for the round low byte of a SAMPLE SET whose payload is empty (R17, R183). Entry 9. -/
opaque missingRoundByte : Byte

/-- What stands for the alert code of an ALERT whose payload is empty (R42, R183). Entry 9. -/
opaque missingAlertCode : Byte

/-- The device identity fixed at manufacture (R153). Entry 16. -/
opaque deviceIdentity : BitVec 64

end Sys2Proof.Config
end

