-- ==== Sys2Proof/Machine/State.lean ====
section
/-! DEFINITION. The state of the KW4132, block by block, and the state right after a power-on reset. -/

namespace Sys2Proof.Machine

/-- No command of the block stops it: every refusal of the manual is a REPLY, every failure a notice and a changed
state, and a command that cannot occur in the present state changes nothing (entry 4). The type has no constructor,
so nobody raises a fault; this is safe. -/
inductive Fault
  deriving DecidableEq, Repr

/-- Why a command is turned away. -/
inductive Refusal
  /-- Raised by `exec` for a command that has no meaning yet; no arm of the finished model raises it. Safe. -/
  | notModelled (mnemonic : String)
  deriving DecidableEq, Repr

structure State where
  /-- The Timebase count (R1). -/
  time         : Instant
  /-- The main oscillator runs (R2, R102, R141). -/
  oscillator   : Bool
  cursor       : Cursor
  roundCounter : RoundNumber
  /-- The round created and not yet placed (R13). -/
  pendingRound : Option RoundRecord
  /-- The working copies; absent while UNCONFIGURED (R152). -/
  working      : Option Working
  ports        : PerChain ChainPort
  stream       : CurrentStream
  /-- The run states of the 64 limit entries; empty while there is no table (R68). -/
  limits       : List LimitRun
  /-- The records of the Round Ring in creation order, the oldest at the head (R81). -/
  ring         : List RoundRecord
  captures     : CaptureUnit
  channels     : PerChannel Channel
  drives       : PerChannel Drive
  sequencer    : Sequencer
  /-- The reclose inhibit set in order of joining (R129). -/
  inhibit      : List Cause
  window       : Window
  sleep        : SleepController
  sleepWork    : SleepWork
  update       : UpdateEngine
  commit       : CommitWork
  tampFilter   : InputFilter
  svcFilter    : InputFilter
  store        : ImageStore
  link         : HostLink
  pins         : Pins
  /-- The bound of the start-up selection that is running (R155), absent when none runs. -/
  startup      : Option Instant
  /-- How many free choices have been drawn (entry 3). -/
  free         : Nat
  /-- The commands waiting, first in, first out. -/
  pending      : List Instr
  deriving DecidableEq, Repr

/-- R5: after a reset the cursor is STOPPED at step 0 with start 0 and cycle count 0. -/
def Cursor.reset : Cursor := ⟨.stopped, 0, 0#32, 0#32⟩

/-- R24, R26, R31, R34, R39, R43, R47: a Chain Port after a reset; no node is known to rest (R150), and the port hunts for a
delimiter (R183, entry 39). -/
def ChainPort.reset : ChainPort :=
  { table := [], resting := false, internal := [], forward := [], transaction := none, tagCounter := 0#4, kept := [], survey := .idle,
    surveyPending := false, aligned := [], notAligned := [], lastSurvey := none, run := .running,
    marker := .forward, reception := .hunting }

/-- R52, R53: the Current Stream Input after a reset; of a word that a reset cuts no bit is kept (entry 50). -/
def CurrentStream.reset : CurrentStream := ⟨[], .absent, none, []⟩

/-- R88. -/
def CaptureUnit.reset : CaptureUnit := ⟨[], 1#8, none⟩

/-- The reset settle of R103: 200 ms from the reset instant 0. -/
def resetSettle : Instant := 200000#32

/-- R101 with the debounce of R100 while UNCONFIGURED (15 ms): a channel after a reset, its input reading `closed`. -/
def Channel.reset (closed : Bool) : Channel :=
  { state := .opened, phaseExpiry := none, rawClosed := closed, debouncedClosed := false,
    debounceExpiry := if closed then some 15000#32 else none, stuck := false, dropped := false, welded := false,
    lastOpening := none, lastFault := none, settleExpiry := some resetSettle }

def Drive.off : Drive := ⟨false, none⟩

/-- R117. -/
def Sequencer.reset : Sequencer :=
  { state := .idle, prechargeStart := none, minimumExpiry := none, maximumExpiry := none, goodWords := 0,
    tripCause := none, disconnectPending := false, lastOutcome := none, lastPrecharge := none,
    minimumTaken := false }

/-- R131: disarmed. -/
def Window.disarmed : Window := ⟨false, none, false, none, none, 0⟩

def WakeSet.empty : WakeSet := ⟨.three false, false, false, false, false, false⟩
def Tracker.inactive : Tracker := ⟨none, none, none, none, none⟩

/-- R135. -/
def SleepController.reset : SleepController :=
  { op := .unconfigured, phase := none, latched := .empty, patrolTimer := none, missCount := 0, patrolCount := 0,
    trackers := .three .inactive, shutExpiry := none, sleepInstant := none, lastWake := none }

def SleepWork.reset : SleepWork := ⟨none, .both false, .both false, none, false, none⟩

/-- R156. -/
def UpdateEngine.reset : UpdateEngine := ⟨.closed, none, none, none, none, false, none⟩

def CommitWork.none : CommitWork := ⟨Option.none, 0#32, 0#32, Option.none, false⟩

/-- R168: a filter begins when start-up selection completes, with the filtered level inactive. That it holds this level from the
reset on is the model's choice (DESIGN CHOICE, entry 59). -/
def InputFilter.idle : InputFilter := ⟨false, false, none, none⟩

/-- R153: a slot of a new part. -/
def SlotContents.new : SlotContents := ⟨.erased, 0#32, 0#32, Image.erased⟩

/-- R153: the store of a new part. -/
def ImageStore.new : ImageStore := ⟨.new, .new, 0#32, false, Config.deviceIdentity⟩

/-- R171, R179: the Host Link Port after a reset; an exchange still selected by HSEL# runs as in a SHUT link. -/
def HostLink.reset (selected : Bool) : HostLink :=
  { state := .shut, queue := [], owed := 0, lastDiscarded := false, lastCheckFailed := false,
    unsolicitedDiscard := false, resetExpiry := none, hwake := false,
    exchange := if selected then some ⟨.shut, 0xFF#8, none, [], false⟩ else none }

/-- The levels with nothing driven: the pull-ups hold KFBn, TAMP#, SVC# (11.5); CSFS is inactive. Entry 12. -/
def Pins.undriven : Pins := ⟨.four false, .three false, false, false, false, .high⟩

/-- R155: selection takes at most 3 ms. -/
def selectionBound : Instant := 3000#32

/-- Every block but the Image Store at its reset values, with the input levels, the store, the free choices drawn
and the waiting commands handed over (R2, R101, R153). -/
def State.afterReset (store : ImageStore) (pins : Pins) (selected : Bool) (free : Nat) (pending : List Instr) :
    State :=
  { time := 0#32, oscillator := true, cursor := .reset, roundCounter := 0#16, pendingRound := none, working := none,
    ports := .both .reset, stream := .reset, limits := [], ring := [], captures := .reset,
    channels := ⟨.reset pins.kfb.k1, .reset pins.kfb.k2, .reset pins.kfb.k3, .reset pins.kfb.k4⟩,
    drives := .four .off, sequencer := .reset, inhibit := [], window := .disarmed, sleep := .reset,
    sleepWork := .reset, update := .reset, commit := .none, tampFilter := .idle, svcFilter := .idle, store := store,
    link := .reset selected, pins := pins, startup := some selectionBound, free := free, pending := pending }

/-- The machine right after a power-on reset of a new part (R2, R153), with the inputs undriven. -/
def State.reset : State := State.afterReset .new .undriven false 0 []

end Sys2Proof.Machine
end

