-- ==== Sys2Proof/Machine/Ops.lean ====
section
/-! DEFINITION. The named operations every block uses: instants, the pieces of State under their names, the outbound
queue, the free order of effects, and the latching of wake causes. -/

namespace Sys2Proof.Machine

/-! ### Instants (R1) -/

/-- R1: X is later than Y when X − Y modulo 2^32 lies in 1..2,147,483,647. -/
def later (x y : Instant) : Bool := 1 ≤ (x - y).toNat && (x - y).toNat ≤ 2147483647

/-- The instant `due` is not later than `now`. -/
def reached (due now : Instant) : Bool := !later due now

/-- A timer that is present and whose instant is reached. -/
def expired (due : Option Instant) (now : Instant) : Bool :=
  match due with
  | some d => reached d now
  | none => false

/-- R1: the signed difference of two instants. -/
def instantDiff (x y : Instant) : Int := (x - y).toInt

def micros (n : Nat) : Instant := BitVec.ofNat 32 n
def millis (n : Nat) : Instant := BitVec.ofNat 32 (n * 1000)

/-! ### Pieces of State -/

def State.port (s : State) (c : Chain) : ChainPort := s.ports.get c
def State.setPort (s : State) (c : Chain) (p : ChainPort) : State := { s with ports := s.ports.set c p }
def State.channel (s : State) (k : ChannelId) : Channel := s.channels.get k
def State.setChannel (s : State) (k : ChannelId) (c : Channel) : State := { s with channels := s.channels.set k c }
def State.setDrive (s : State) (k : ChannelId) (d : Drive) : State := { s with drives := s.drives.set k d }
def State.setTracker (s : State) (i : WakeInput) (t : Tracker) : State :=
  { s with sleep := { s.sleep with trackers := s.sleep.trackers.set i t } }

/-- R152: the working epoch, 0 while UNCONFIGURED. -/
def State.workingEpoch (s : State) : Epoch :=
  match s.working with
  | some w => w.epoch
  | none => 0#32

/-- The working tables, absent while UNCONFIGURED. -/
def State.image (s : State) : Option Image := s.working.map Working.image

/-- The sleep states of 00_scope.md 3.1. -/
def OpState.isSleep : OpState → Bool
  | .entering | .asleep | .patrol | .waking => true
  | .unconfigured | .run => false

/-- A pin reset holds every block at its reset values (R182). -/
def State.held (s : State) : Bool := s.pins.reset == .held

/-- A command acts unless a pin reset holds the blocks. -/
def State.unlessHeld (s : State) (f : State → State) : State := if s.held then s else f s

/-- A change carried out only under a condition. -/
def State.when (s : State) (b : Bool) (f : State → State) : State := if b then f s else s

/-- KDRn: high while the channel's drive is on and RESET# is high (R106, R182). -/
def State.kdr (s : State) (k : ChannelId) : Bool := (s.drives.get k).on && s.pins.reset == .high

/-- HATTN#: low (true) exactly while the outbound queue is not empty (R179). -/
def State.attention (s : State) : Bool := !s.link.queue.isEmpty

/-! ### Orders the manual leaves open (entry 3) -/

/-- A list in an order drawn from the free choices, from the `k`-th on. -/
def shuffle {α : Type} (k : Nat) : List α → List α
  | [] => []
  | [x] => [x]
  | x :: y :: rest => (shuffle (k + 1) (y :: rest)).insertIdx (Config.freeChoice k % (rest.length + 2)) x

/-- Changes of one event that no rule orders, carried out in a free order. -/
def State.anyOrder (s : State) (fs : List (State → State)) : State :=
  (shuffle s.free fs).foldl (fun s f => f s) { s with free := s.free + fs.length }

/-! ### The outbound queue (R177) -/

/-- The class of a frame (10.4). -/
def Outbound.isAnswer : Outbound → Bool
  | .reply _ _ _ => true
  | .relay _ _ _ late _ => !late
  | .roundReport _ => false
  | .notice _ => false

def HostLink.answers (l : HostLink) : Nat := (l.queue.filter fun q => q.frame.isAnswer).length
def HostLink.unsolicited (l : HostLink) : Nat := (l.queue.filter fun q => !q.frame.isAnswer).length

/-- A frame joins the tail of the queue. -/
def HostLink.push (l : HostLink) (f : Outbound) (final : Bool) : HostLink :=
  { l with queue := l.queue ++ [⟨f, final⟩] }

/-- R177: a refused frame is lost and the unsolicited-discard flag is set. -/
def HostLink.refuse (l : HostLink) : HostLink := { l with unsolicitedDiscard := true }

/-- R177: where a frame of its class may join. -/
def HostLink.accepts (l : HostLink) (f : Outbound) : Bool :=
  match l.state with
  | .shut => false
  | .closing => f.isAnswer
  | .opened | .resetting => f.isAnswer || l.unsolicited < 12

def HostLink.offer (l : HostLink) (f : Outbound) (final : Bool) : HostLink :=
  if l.accepts f then l.push f final else l.refuse

def State.offer (s : State) (f : Outbound) : State := { s with link := s.link.offer f false }

/-- The REPLY to a request. -/
def State.reply (s : State) (tag : Byte) (status : ReplyStatus) (result : ResultData) : State :=
  s.offer (.reply tag status result)

/-- A REPLY with a reason (R185). -/
def State.refuse (s : State) (tag : Byte) (status : ReplyStatus) (r : Reason) : State :=
  s.reply tag status (.reason r)

/-- The DONE whose departure shuts the link (R139) or resets the bridge (R181). -/
def State.replyFinal (s : State) (tag : Byte) : State :=
  { s with link := s.link.offer (.reply tag .done .none) true }

def State.notify (s : State) (n : Notice) : State := s.offer (.notice n)

/-- A notice that is offered in RUN, UNCONFIGURED and WAKING alone (R71, R89, R92, R113, R128, R169). -/
def State.notifyAwake (s : State) (n : Notice) : State :=
  match s.sleep.op with
  | .run | .unconfigured | .waking => s.notify n
  | .entering | .asleep | .patrol => s

/-! ### Wake causes (R147) -/

def WakeSet.isEmpty (w : WakeSet) : Bool := w == .empty

def WakeSet.add (w : WakeSet) : WakeCause → WakeSet
  | .input i => { w with inputs := w.inputs.set i true }
  | .hostSelect => { w with hostSelect := true }
  | .chainAlert => { w with chainAlert := true }
  | .tamper => { w with tamper := true }
  | .breach => { w with breach := true }
  | .patrolMiss => { w with patrolMiss := true }

def WakeSet.has (w : WakeSet) : WakeCause → Bool
  | .input i => w.inputs.get i
  | .hostSelect => w.hostSelect
  | .chainAlert => w.chainAlert
  | .tamper => w.tamper
  | .breach => w.breach
  | .patrolMiss => w.patrolMiss

def WakeSet.union (v w : WakeSet) : WakeSet :=
  { inputs := ⟨v.inputs.w1 || w.inputs.w1, v.inputs.w2 || w.inputs.w2, v.inputs.w3 || w.inputs.w3⟩
    hostSelect := v.hostSelect || w.hostSelect
    chainAlert := v.chainAlert || w.chainAlert
    tamper := v.tamper || w.tamper
    breach := v.breach || w.breach
    patrolMiss := v.patrolMiss || w.patrolMiss }

/-- R148: WAKING begins with the oscillator stopped, in OSC_START for 0.5 ms; the patrol timer stops (R147). -/
def State.wakeFromAsleep (s : State) : State :=
  { s with
    sleep := { s.sleep with op := .waking, phase := some .oscStart, patrolTimer := none }
    sleepWork := { s.sleepWork with
      phaseExpiry := some (s.time + micros 500), wakingSince := some s.time, awaiting := .both false,
      roused := .both false } }

/-- R147: a cause is latched by joining the set in a sleep state; in ASLEEP the bridge enters WAKING at once; in RUN
and UNCONFIGURED nothing is latched. -/
def State.latch (s : State) (c : WakeCause) : State :=
  match s.sleep.op with
  | .run | .unconfigured => s
  | .asleep => { s with sleep := { s.sleep with latched := s.sleep.latched.add c } }.wakeFromAsleep
  | .entering | .patrol | .waking => { s with sleep := { s.sleep with latched := s.sleep.latched.add c } }

end Sys2Proof.Machine
end

