-- ==== Sys2Proof/Machine/Operands.lean ====
section
/-! DEFINITION. Every byte form the manual gives: the request arguments (R185), the image records (R186) read as the
tables of chapters 1 to 9, the field checks (R158), the check word (R154), the outbound frames (11.2, 11.3) and the
chain frames (11.1, R183). -/

namespace Sys2Proof

open Machine

/-! ### Fields of a record (R186) -/

def byteAt (r : Record) (i : Nat) : Nat := (r.getD i 0#8).toNat
def field16 (r : Record) (i : Nat) : Nat := byteAt r i * 256 + byteAt r (i + 1)
def field24 (r : Record) (i : Nat) : Nat := byteAt r i * 65536 + byteAt r (i + 1) * 256 + byteAt r (i + 2)
/-- A four-byte signed field. -/
def signed32 (r : Record) (i : Nat) : Int :=
  (word32 (r.getD i 0#8) (r.getD (i + 1) 0#8) (r.getD (i + 2) 0#8) (r.getD (i + 3) 0#8)).toInt
def flagAt (r : Record) (i : Nat) : Bool := byteAt r i == 1
/-- An action field: 0..15, or FFh for "none". -/
def actionAt (r : Record) (i : Nat) : Option Nat := if byteAt r i ≤ 15 then some (byteAt r i) else none

def sampleKindOf : Nat → SampleKind
  | 1 => .cells
  | 2 => .temps
  | _ => .both

def chainOf : Byte → Option Chain
  | 0x00#8 => some .A
  | 0x01#8 => some .B
  | _ => none

def channelOf : Byte → Option ChannelId
  | 0x01#8 => some .K1
  | 0x02#8 => some .K2
  | 0x03#8 => some .K3
  | 0x04#8 => some .K4
  | _ => none

/-- A chain mask: 01h A, 02h B, 03h both. -/
def chainsOf (code : Nat) : List Chain :=
  (if code == 1 || code == 3 then [Chain.A] else []) ++ (if code == 2 || code == 3 then [Chain.B] else [])

def Chain.index : Chain → Nat
  | .A => 0
  | .B => 1

def ChannelId.index : ChannelId → Nat
  | .K1 => 0
  | .K2 => 1
  | .K3 => 2
  | .K4 => 3

/-! ### The working tables -/

/-- A schedule step (R4); the width is in units of 100 µs. -/
structure ScheduleStep where
  trigger : Bool
  width   : Nat
  chains  : List Chain
  kind    : SampleKind
  report  : Bool
  deriving DecidableEq, Repr

def readStep (r : Record) : Option ScheduleStep :=
  if byteAt r 0 == 0 then none
  else some
    { trigger := byteAt r 0 == 2, width := field16 r 1, chains := chainsOf (byteAt r 3),
      kind := sampleKindOf (byteAt r 4), report := flagAt r 5 }

/-- R151: the step list runs from record 0 up to the last enabled record before the first empty one. -/
def Image.steps (i : Image) : List ScheduleStep := (i.schedule.map readStep).takeWhile Option.isSome |>.reduceOption

/-- The Chain Timing of a chain (R32), times in µs. -/
structure ChainTiming where
  target     : Nat
  window     : Nat
  guard      : Nat
  answerBase : Nat
  hop        : Nat
  autoSurvey : Bool
  deriving DecidableEq, Repr

/-- R32; H is the value of chain A's record for both chains (R151). -/
def Image.timing (i : Image) (c : Chain) : ChainTiming :=
  let r := i.chainTiming.getD (Chain.index c) []
  { target := field16 (i.chainTiming.getD 0 []) 0, window := field16 r 2, guard := field16 r 4,
    answerBase := field16 r 6, hop := byteAt r 8, autoSurvey := flagAt r 9 }

/-- A planned position (2.2.1). -/
structure Planned where
  position : Nat
  cells    : Nat
  temps    : Nat
  deriving DecidableEq, Repr

def readPlanned (position : Nat) (r : Record) : Option Planned :=
  if byteAt r 0 == 0 then none else some ⟨position, byteAt r 1, byteAt r 2⟩

/-- The planned positions of a chain in ascending order (R151). -/
def Image.plan (i : Image) (c : Chain) : List Planned :=
  (((i.nodePlan.drop (16 * Chain.index c)).take 16).zipIdx.map fun x => readPlanned (x.2 + 1) x.1).reduceOption

def Image.nodeLossLimit (i : Image) (c : Chain) : Nat := byteAt (i.nodePlan.getD (32 + Chain.index c) []) 0
def Image.nodeLossAction (i : Image) (c : Chain) : Option Nat := actionAt (i.nodePlan.getD (32 + Chain.index c) []) 1

/-- An enabled limit entry (R61). -/
structure LimitEntry where
  quantity      : Quantity
  chains        : List Chain
  firstPosition : Nat
  lastPosition  : Nat
  firstChannel  : Nat
  lastChannel   : Nat
  low           : Int
  high          : Int
  persistence   : Nat
  action        : Option Nat
  awake         : Bool
  asleep        : Bool
  deriving DecidableEq, Repr

def quantityOf : Nat → Quantity
  | 1 => .cell
  | 2 => .temp
  | 3 => .spread
  | _ => .current

def readLimit (r : Record) : Option LimitEntry :=
  if byteAt r 0 == 0 then none
  else some
    { quantity := quantityOf (byteAt r 1), chains := chainsOf (byteAt r 2), firstPosition := byteAt r 3,
      lastPosition := byteAt r 4, firstChannel := byteAt r 5, lastChannel := byteAt r 6, low := signed32 r 7,
      high := signed32 r 11, persistence := byteAt r 15, action := actionAt r 16,
      awake := byteAt r 17 == 1 || byteAt r 17 == 3, asleep := byteAt r 17 == 2 || byteAt r 17 == 3 }

/-- The limit entry of an index, absent when the record is empty. -/
def Image.limitEntry (i : Image) (n : Nat) : Option LimitEntry := readLimit (i.limit.getD n [])

/-- An Action Table entry (R73). -/
structure ActionEntry where
  opens    : List ChannelId
  inhibit  : Bool
  capture  : Bool
  wakeHost : Bool
  deriving DecidableEq, Repr

def Image.actionEntry (i : Image) (n : Nat) : ActionEntry :=
  let r := i.action.getD n []
  { opens := ChannelId.all.filter fun k => (byteAt r 0).testBit (ChannelId.index k)
    inhibit := (byteAt r 1).testBit 0, capture := (byteAt r 1).testBit 1, wakeHost := (byteAt r 1).testBit 2 }

/-- A channel record of the Contactor Profile (R100); pull-in, dropout and debounce in ms, the period in µs. -/
structure ChannelProfile where
  role     : Role
  pullIn   : Nat
  dropout  : Nat
  debounce : Nat
  period   : Nat
  duty     : Nat
  linked   : Bool
  deriving DecidableEq, Repr

def roleOf : Nat → Role
  | 1 => .neg
  | 2 => .pre
  | 3 => .pos
  | _ => .aux

def Image.channelProfile (i : Image) (k : ChannelId) : ChannelProfile :=
  let r := i.contactor.getD (ChannelId.index k) []
  { role := roleOf (byteAt r 0), pullIn := field16 r 1, dropout := byteAt r 3, debounce := byteAt r 4,
    period := field16 r 5, duty := byteAt r 7, linked := flagAt r 8 }

/-- The shared record of the Contactor Profile (R100, 7.1, R57); currents in mA, delay in µs, times in ms. -/
structure SharedProfile where
  breakCurrent       : Nat
  captureOnUnderLoad : Bool
  stuckAction        : Option Nat
  droppedAction      : Option Nat
  weldAction         : Option Nat
  converterDelay     : Nat
  currentLossAction  : Option Nat
  prechargeMinimum   : Nat
  prechargeMaximum   : Nat
  endCurrent         : Nat
  endCount           : Nat
  wmin               : Nat
  wmax               : Nat
  faultLimit         : Nat
  supervisionAction  : Option Nat
  deriving DecidableEq, Repr

def Image.shared (i : Image) : SharedProfile :=
  let r := i.contactor.getD 4 []
  { breakCurrent := field24 r 0, captureOnUnderLoad := flagAt r 3, stuckAction := actionAt r 4,
    droppedAction := actionAt r 5, weldAction := actionAt r 6, converterDelay := byteAt r 7,
    currentLossAction := actionAt r 8, prechargeMinimum := field16 r 9, prechargeMaximum := field16 r 11,
    endCurrent := field24 r 13, endCount := byteAt r 16, wmin := field16 r 17, wmax := field16 r 19,
    faultLimit := byteAt r 21, supervisionAction := actionAt r 22 }

/-- P and Q of the Capture Profile (R97). -/
def Image.capturePre (i : Image) : Nat := byteAt (i.capture.getD 0 []) 0
def Image.capturePost (i : Image) : Nat := byteAt (i.capture.getD 0 []) 1

inductive WakeMode
  | off
  | rise
  | fall
  | either
  deriving DecidableEq, Repr

/-- The settings of one wake input (R136); the filter time in µs. -/
structure WakeSetting where
  mode   : WakeMode
  filter : Nat
  pulsed : Bool
  deriving DecidableEq, Repr

/-- The Patrol Table (R136); the interval in s, the node wake time in ms, the pulse times in µs. -/
structure PatrolTable where
  interval       : Nat
  chains         : List Chain
  kind           : SampleKind
  nodeWake       : Nat
  missLimit      : Nat
  firstImmediate : Bool
  inputs         : PerWake WakeSetting
  pulseOn        : Nat
  pulsePeriod    : Nat
  chainAlert     : Bool
  deriving DecidableEq, Repr

def wakeModeOf : Nat → WakeMode
  | 0 => .off
  | 1 => .rise
  | 2 => .fall
  | _ => .either

def wakeFilterOf : Nat → Nat
  | 1 => 100
  | 2 => 1000
  | _ => 10000

def pulseOnOf : Nat → Nat
  | 1 => 100
  | 2 => 500
  | _ => 2000

def pulsePeriodOf : Nat → Nat
  | 1 => 16000
  | 2 => 64000
  | 3 => 256000
  | _ => 1024000

def readWakeSetting (r : Record) (at_ : Nat) : WakeSetting :=
  ⟨wakeModeOf (byteAt r at_), wakeFilterOf (byteAt r (at_ + 1)), flagAt r (at_ + 2)⟩

def Image.patrolTable (i : Image) : PatrolTable :=
  let r := i.patrol.getD 0 []
  { interval := field16 r 0, chains := chainsOf (byteAt r 2), kind := sampleKindOf (byteAt r 3),
    nodeWake := byteAt r 4, missLimit := byteAt r 5, firstImmediate := flagAt r 6,
    inputs := ⟨readWakeSetting r 7, readWakeSetting r 10, readWakeSetting r 13⟩, pulseOn := pulseOnOf (byteAt r 16),
    pulsePeriod := pulsePeriodOf (byteAt r 17), chainAlert := flagAt r 18 }

/-- The OPTIONS record (R151). -/
def Image.tamperAction (i : Image) : Option Nat := actionAt (i.options.getD 0 []) 0
def Image.serviceRequired (i : Image) : Bool := flagAt (i.options.getD 0 []) 1

/-! ### Records by table code (R185) -/

def Image.tableOf (i : Image) (table : Byte) : Option (List Record) :=
  match table with
  | 0x01#8 => some i.schedule
  | 0x02#8 => some i.chainTiming
  | 0x03#8 => some i.nodePlan
  | 0x04#8 => some i.limit
  | 0x05#8 => some i.action
  | 0x06#8 => some i.contactor
  | 0x07#8 => some i.capture
  | 0x08#8 => some i.patrol
  | 0x09#8 => some i.options
  | _ => none

def Image.withTable (i : Image) (table : Byte) (t : List Record) : Image :=
  match table with
  | 0x01#8 => { i with schedule := t }
  | 0x02#8 => { i with chainTiming := t }
  | 0x03#8 => { i with nodePlan := t }
  | 0x04#8 => { i with limit := t }
  | 0x05#8 => { i with action := t }
  | 0x06#8 => { i with contactor := t }
  | 0x07#8 => { i with capture := t }
  | 0x08#8 => { i with patrol := t }
  | 0x09#8 => { i with options := t }
  | _ => i

/-- The record counts of R151, 0 for a code that names no table. -/
def recordCount : Byte → Nat
  | 0x01#8 => 16
  | 0x02#8 => 2
  | 0x03#8 => 34
  | 0x04#8 => 64
  | 0x05#8 => 16
  | 0x06#8 => 5
  | 0x07#8 => 1
  | 0x08#8 => 1
  | 0x09#8 => 1
  | _ => 0

def Image.recordAt (i : Image) (table index : Byte) : Record :=
  ((i.tableOf table).getD []).getD index.toNat []

def Image.withRecord (i : Image) (table index : Byte) (r : Record) : Image :=
  i.withTable table (((i.tableOf table).getD []).set index.toNat r)

/-- The 140 records in canonical order (R151). -/
def Image.records (i : Image) : List Record := i.tables.flatten

/-! ### Field checks (R158, R186) -/

/-- One check of a record: the byte offset reported when it fails. -/
structure FieldCheck where
  offset : Nat
  holds  : Bool

def inRange (low high x : Nat) : Bool := low ≤ x && x ≤ high
def flagForm (r : Record) (i : Nat) : FieldCheck := ⟨i, inRange 0 1 (byteAt r i)⟩
def actionForm (r : Record) (i : Nat) : FieldCheck := ⟨i, byteAt r i ≤ 15 || byteAt r i == 255⟩
def byteRange (r : Record) (i low high : Nat) : FieldCheck := ⟨i, inRange low high (byteAt r i)⟩
def wordRange (r : Record) (i low high : Nat) : FieldCheck := ⟨i, inRange low high (field16 r i)⟩
def tripleRange (r : Record) (i low high : Nat) : FieldCheck := ⟨i, inRange low high (field24 r i)⟩
def signedRange (r : Record) (i : Nat) (low high : Int) : FieldCheck := ⟨i, low ≤ signed32 r i && signed32 r i ≤ high⟩
/-- Two fields in order; which of them is the failing one is open (entry 8). -/
def ordered (first second : Nat) (holds : Bool) : FieldCheck :=
  ⟨if Config.disorderAtSecond then second else first, holds⟩
/-- Two fields with a range each, in order. The order stands between the ranges, so that which field fails is open too where the
second is out of its own range (entry 8). -/
def orderedPair (first second : FieldCheck) (holds : Bool) : List FieldCheck :=
  [first, ordered first.offset second.offset holds, second]

def scheduleChecks (r : Record) : List FieldCheck :=
  [byteRange r 0 1 2, wordRange r 1 1 2000, byteRange r 3 1 3, byteRange r 4 1 3, flagForm r 5]

def chainTimingChecks (r : Record) : List FieldCheck :=
  [wordRange r 0 20 500, wordRange r 2 1000 20000, wordRange r 4 0 2000, wordRange r 6 50 5000, byteRange r 8 0 100,
   flagForm r 9]

def positionChecks (r : Record) : List FieldCheck := [byteRange r 0 1 1, byteRange r 1 1 16, byteRange r 2 0 4]
def planChecks (r : Record) : List FieldCheck := [byteRange r 0 1 15, actionForm r 1]

/-- The fields of an enabled limit entry (R61, entry 23); the failing field of a pair in the wrong order is open (entry 8). -/
def limitChecks (r : Record) : List FieldCheck :=
  let q := byteAt r 1
  let channels (high : Nat) := orderedPair (byteRange r 5 1 high) (byteRange r 6 1 high) (byteAt r 5 ≤ byteAt r 6)
  let limits (low high : Int) := orderedPair (signedRange r 7 low high) (signedRange r 11 low high) (signed32 r 7 ≤ signed32 r 11)
  [byteRange r 0 1 1, byteRange r 1 1 4, byteRange r 2 1 3] ++
  orderedPair (byteRange r 3 1 16) (byteRange r 4 1 16) (byteAt r 3 ≤ byteAt r 4) ++
  (if q == 1 || q == 3 then channels 16 else if q == 2 then channels 4 else [ordered 5 6 (byteAt r 5 ≤ byteAt r 6)]) ++
  (if q == 1 then limits 0 65535 else if q == 2 then limits (-32768) 32767
    else if q == 3 then [signedRange r 11 0 65535] else limits (-8388608) 8388607) ++
  [byteRange r 15 1 (if q == 4 then 255 else 15), actionForm r 16, byteRange r 17 1 3]

def actionChecks (r : Record) : List FieldCheck := [byteRange r 0 0 15, byteRange r 1 0 7]

def channelChecks (r : Record) : List FieldCheck :=
  [byteRange r 0 1 4, wordRange r 1 20 500, byteRange r 3 10 200, byteRange r 4 1 15, wordRange r 5 50 1000,
   byteRange r 7 10 100, flagForm r 8]

def sharedChecks (r : Record) : List FieldCheck :=
  [tripleRange r 0 0 8388607, flagForm r 3, actionForm r 4, actionForm r 5, actionForm r 6, byteRange r 7 0 200,
   actionForm r 8, wordRange r 9 50 5000, wordRange r 11 50 5000, tripleRange r 13 0 8388607, byteRange r 16 1 64,
   wordRange r 17 10 1000, wordRange r 19 20 2000, byteRange r 21 1 2, actionForm r 22]

def captureChecks (r : Record) : List FieldCheck := [byteRange r 0 0 4, byteRange r 1 0 4]

def patrolChecks (r : Record) : List FieldCheck :=
  [wordRange r 0 1 3600, byteRange r 2 0 3, byteRange r 3 1 3, byteRange r 4 1 20, byteRange r 5 1 7, flagForm r 6,
   byteRange r 7 0 3, byteRange r 8 1 3, flagForm r 9, byteRange r 10 0 3, byteRange r 11 1 3, flagForm r 12,
   byteRange r 13 0 3, byteRange r 14 1 3, flagForm r 15, byteRange r 16 1 3, byteRange r 17 1 4, flagForm r 18]

def optionsChecks (r : Record) : List FieldCheck := [actionForm r 0, flagForm r 1]

/-- The length of a record (R186). -/
def recordLength (table : Byte) (index : Nat) : Nat :=
  match table with
  | 0x01#8 => 6
  | 0x02#8 => 10
  | 0x03#8 => if index < 32 then 3 else 2
  | 0x04#8 => 18
  | 0x05#8 => 2
  | 0x06#8 => if index < 4 then 9 else 23
  | 0x07#8 => 2
  | 0x08#8 => 19
  | _ => 2

/-- The tables whose records may be empty (R158): SCHEDULE, NODE_PLAN positions and LIMIT. -/
def mayBeEmpty (table : Byte) (index : Nat) : Bool :=
  table == 0x01#8 || (table == 0x03#8 && index < 32) || table == 0x04#8

def recordChecks (table : Byte) (index : Nat) (r : Record) : List FieldCheck :=
  match table with
  | 0x01#8 => scheduleChecks r
  | 0x02#8 => chainTimingChecks r
  | 0x03#8 => if index < 32 then positionChecks r else planChecks r
  | 0x04#8 => limitChecks r
  | 0x05#8 => actionChecks r
  | 0x06#8 => if index < 4 then channelChecks r else sharedChecks r
  | 0x07#8 => captureChecks r
  | 0x08#8 => patrolChecks r
  | _ => optionsChecks r

/-- R158, R185: the FIELD offset of the first failing field, FFh when the length is wrong; none when the record
passes. -/
def failingField (table : Byte) (index : Nat) (r : Record) : Option Byte :=
  if r.length ≠ recordLength table index then some 0xFF#8
  else if mayBeEmpty table index && byteAt r 0 == 0 then none
  else ((recordChecks table index r).find? fun c => !c.holds).map fun c => BitVec.ofNat 8 c.offset

/-! ### The blank image (R157) -/

def emptyRecord (length : Nat) : Record := 0x00#8 :: List.replicate (length - 1) Config.blankFill

def Image.blank : Image :=
  { schedule := List.replicate 16 (emptyRecord 6)
    chainTiming := List.replicate 2 [0x00, 0x14, 0x03, 0xE8, 0x00, 0x00, 0x00, 0x32, 0x00, 0x00]
    nodePlan := List.replicate 32 (emptyRecord 3) ++ List.replicate 2 [0x01, 0xFF]
    limit := List.replicate 64 (emptyRecord 18)
    action := List.replicate 16 [0x00, 0x00]
    contactor :=
      List.replicate 4 [0x01, 0x00, 0x14, 0x0A, 0x01, 0x00, 0x32, 0x0A, 0x00] ++
      [[0x00, 0x00, 0x00, 0x00, 0xFF, 0xFF, 0xFF, 0x00, 0xFF, 0x00, 0x32, 0x00, 0x32, 0x00, 0x00, 0x00, 0x01, 0x00,
        0x0A, 0x00, 0x14, 0x01, 0xFF]]
    capture := [[0x00, 0x00]]
    patrol := [[0x00, 0x01, 0x00, 0x01, 0x01, 0x01, 0x00, 0x00, 0x01, 0x00, 0x00, 0x01, 0x00, 0x00, 0x01, 0x00, 0x01,
      0x01, 0x00]]
    options := [[0xFF, 0x00]] }

/-! ### The check word (R154, R186): CRC-32, reflected, polynomial 04C11DB7h -/

def crc32Bit (c : BitVec 32) : BitVec 32 :=
  if c.getLsbD 0 then (c >>> 1) ^^^ 0xEDB88320#32 else c >>> 1

def crc32Byte (c : BitVec 32) (b : Byte) : BitVec 32 :=
  let c := c ^^^ b.zeroExtend 32
  crc32Bit (crc32Bit (crc32Bit (crc32Bit (crc32Bit (crc32Bit (crc32Bit (crc32Bit c)))))))

def crc32 (bytes : List Byte) : BitVec 32 := ~~~ bytes.foldl crc32Byte 0xFFFFFFFF#32

/-- The eight bytes of the device identity, most significant first. -/
def bytes64 (x : BitVec 64) : List Byte := bytes32 ((x >>> 32).truncate 32) ++ bytes32 (x.truncate 32)

def checkWord (identity : BitVec 64) (epoch : Epoch) (i : Image) : BitVec 32 :=
  crc32 (bytes64 identity ++ bytes32 epoch ++ i.records.flatten)

end Sys2Proof

namespace Sys2Proof.Machine

/-! ### The cause named by ACK_TRIP (R130, R185) -/

def decodeCause (kind field1 field2 : Byte) : Option Cause :=
  match kind with
  | 0x01#8 => if field1.toNat ≤ 63 then some (.limit field1.toNat) else none
  | 0x02#8 =>
    match chainOf field1 with
    | some c => if inRange 1 16 field2.toNat then some (.node c field2.toNat) else none
    | none => none
  | 0x03#8 => some .current
  | 0x04#8 => some .supervision
  | 0x05#8 =>
    match channelOf field1, field2 with
    | some k, 0x01#8 => some (.contactor k .stuck)
    | some k, 0x02#8 => some (.contactor k .dropped)
    | some k, 0x03#8 => some (.contactor k .welded)
    | _, _ => none
  | 0x06#8 => some .tamper
  | _ => none

/-! ### Round records in bytes (11.3) -/

def byteOfNat (n : Nat) : Byte := BitVec.ofNat 8 n

def Chain.code : Chain → Byte
  | .A => 0x00#8
  | .B => 0x01#8

def SampleKind.code : SampleKind → Byte
  | .cells => 0x01#8
  | .temps => 0x02#8
  | .both => 0x03#8

def PartState.code : PartState → Byte
  | .waiting => 0x00#8
  | .sent => 0x01#8
  | .missed => 0x02#8
  | .stopped => 0x03#8

def endCauseCode : Option EndCause → Byte
  | none => 0x00#8
  | some .complete => 0x01#8
  | some .deadline => 0x02#8
  | some .aborted => 0x03#8

def ReadingStatus.code : ReadingStatus → Byte
  | .ok => 0x00#8
  | .missing => 0x01#8
  | .checkFailed => 0x02#8
  | .unaligned => 0x03#8

def Verdict.code : Verdict → Byte
  | .within => 0x01#8
  | .violate => 0x02#8
  | .unknown => 0x03#8

def limitChangeCode : Option LimitChange → Byte
  | none => 0x00#8
  | some .trip => 0x01#8
  | some .release => 0x02#8

def RoundStep.code : RoundStep → Byte
  | .step i => byteOfNat i
  | .wake => 0x40#8
  | .patrol => 0x80#8

/-- Flags packed from bit 0 up. -/
def packFlags : List Bool → Nat
  | [] => 0
  | b :: rest => (if b then 1 else 0) + 2 * packFlags rest

def flagByte (l : List Bool) : Byte := byteOfNat (packFlags l)

def bytes24 (x : BitVec 24) : List Byte := [(x >>> 16).truncate 8, (x >>> 8).truncate 8, x.truncate 8]

def Reading.bytes (r : Reading) : List Byte :=
  [byteOfNat r.position, r.status.code, flagByte [r.nodeReset, r.localFault], byteOfNat r.cells.length,
   byteOfNat r.temps.length] ++ r.cells.flatMap bytes16 ++ r.temps.flatMap bytes16

def currentEntryBytes : Option CurrentEntry → List Byte
  | none => [0x00#8, 0, 0, 0, 0, 0]
  | some c => 0x01#8 :: bytes24 c.value ++ bytes16 (BitVec.ofInt 16 c.skew)

def ChainPart.bytes (p : ChainPart) : List Byte :=
  [Chain.code p.chain, p.state.code, endCauseCode p.endCause] ++ bytes32 (p.actual.getD 0#32) ++
  bytes32 (p.lateness.getD 0#32) ++ currentEntryBytes p.current ++ byteOfNat p.readings.length ::
  p.readings.flatMap Reading.bytes

def VerdictItem.bytes (v : VerdictItem) : List Byte := [byteOfNat v.entry, v.verdict.code, limitChangeCode v.change]

def RoundRecord.bytes (r : RoundRecord) : List Byte :=
  bytes16 r.number ++ [r.step.code, r.kind.code, flagByte [r.report, r.reported, r.closed], byteOfNat r.holders] ++
  bytes32 r.epoch ++ bytes32 r.planned ++ byteOfNat r.parts.length :: r.parts.flatMap ChainPart.bytes ++
  byteOfNat r.verdicts.length :: r.verdicts.flatMap VerdictItem.bytes

/-! ### Outbound frames in bytes (11.2.2) -/

def ReplyStatus.code : ReplyStatus → Byte
  | .done => 0x00#8
  | .accepted => 0x01#8
  | .busy => 0x02#8
  | .refusedState => 0x03#8
  | .badArgument => 0x04#8
  | .locked => 0x05#8
  | .noSuch => 0x06#8
  | .noAnswer => 0x07#8
  | .chainStopped => 0x08#8

def Reason.bytes : Reason → List Byte
  | .state => [0x01#8]
  | .inhibited => [0x02#8]
  | .current => [0x03#8]
  | .welded => [0x04#8]
  | .settle => [0x05#8]
  | .contactor => [0x06#8]
  | .sequencer => [0x07#8]
  | .update => [0x08#8]
  | .capture => [0x09#8]
  | .survey => [0x0A#8]
  | .pass => [0x0B#8]
  | .service => [0x0C#8]
  | .tamper => [0x0D#8]
  | .table => [0x0E#8]
  | .field o => [0x0F#8, o]
  | .steps t i => [0x10#8, t, i]
  | .width t i => [0x11#8, t, i]
  | .scope t i => [0x12#8, t, i]
  | .actionIndex t i => [0x13#8, t, i]
  | .roles t i => [0x14#8, t, i]
  | .window t i => [0x15#8, t, i]
  | .precharge t i => [0x16#8, t, i]
  | .check => [0x17#8]

/-- The result data of a REPLY: the forms of R185, 11.3 and R186; the other forms are not given (entry 5). -/
def ResultData.bytes : ResultData → List Byte
  | .none => []
  | .reason r => r.bytes
  | .round r => r.bytes
  | .roundPart i r => i :: r.bytes
  | .record r => r
  | .captureId i => Config.resultFields (.captureId i)
  | .captureHeader h => Config.resultFields (.captureHeader h)
  | .currentBlock l => Config.resultFields (.currentBlock l)
  | .causesLeft n => Config.resultFields (.causesLeft n)
  | .supervision j f e => Config.resultFields (.supervision j f e)
  | .updateOpened f w => Config.resultFields (.updateOpened f w)
  | .status i e c => Config.resultFields (.status i e c)

/-- The NOTICE kind codes (11.2.2, note 3). -/
def Notice.code : Notice → Byte
  | .trip _ _ _ _ _ _ => 0x01#8
  | .release _ _ _ _ _ => 0x02#8
  | .nodeLost _ _ _ => 0x03#8
  | .nodeBack _ _ => 0x04#8
  | .nodeUnaligned _ _ _ => 0x05#8
  | .alert _ _ _ => 0x06#8
  | .surveyDone _ _ => 0x07#8
  | .chainStopped _ _ => 0x08#8
  | .currentLost _ => 0x09#8
  | .currentBack _ _ _ => 0x0A#8
  | .contactor _ _ _ _ _ _ _ _ _ _ => 0x0B#8
  | .sequence _ _ _ _ _ _ _ => 0x0C#8
  | .supervisionFault _ _ _ _ => 0x0D#8
  | .supervisionLoss _ _ => 0x0E#8
  | .captureDone _ _ _ _ => 0x0F#8
  | .captureRefused _ => 0x10#8
  | .commitDone _ _ _ => 0x11#8
  | .commitFailed _ _ => 0x12#8
  | .windowClosed _ => 0x13#8
  | .tamper _ => 0x14#8
  | .woke _ => 0x15#8

def Outbound.kindCode : Outbound → Byte
  | .reply _ _ _ => 0x01#8
  | .relay _ _ _ _ _ => 0x02#8
  | .roundReport _ => 0x03#8
  | .notice _ => 0x04#8

def Outbound.payload : Outbound → List Byte
  | .reply tag status result => tag :: status.code :: result.bytes
  | .relay tag chain position late data => tag :: Chain.code chain :: byteOfNat position :: flagByte [late] :: data
  | .roundReport r => r.bytes
  | .notice n => n.code :: Config.noticeFields n

/-- An outbound frame, at most 2048 bytes long, check included (R177). -/
def Outbound.bytes (f : Outbound) : List Byte := linkFrame f.kindCode (f.payload.take 2043)

/-- A FILL: a header with length 0 and no check (R172, 11.2.2). -/
def fillBytes : List Byte := [0x00#8, 0x00#8, 0x00#8]

/-- The bytes of an exchange on HSDO, of which the host clocks as many as it wants (R171, R172). -/
def Exchange.hsdo (e : Exchange) (clocked : Nat) : List Byte :=
  match e.kind with
  | .shut => List.replicate clocked 0xFF#8
  | .live | .closing =>
    let body := e.status :: (match e.frame with | some q => q.frame.bytes | none => fillBytes)
    (body ++ List.replicate clocked 0x00#8).take clocked

/-- The whole bytes clocked so far (R172). -/
def Exchange.clocked (e : Exchange) : Nat := e.bits.length / 8

/-- R172: the bit that stands on HSDO: the first from the beginning, and a next one from each falling edge of HSCK. -/
def Exchange.hsdoBit (e : Exchange) : Bool :=
  let n := if e.clock then e.bits.length - 1 else e.bits.length
  ((e.hsdo (n / 8 + 1)).getD (n / 8) 0#8).getMsbD (n % 8)

/-- The byte of eight bits, the most significant first. -/
def byteOfBits (bits : List Bool) : Byte := bits.foldl (fun b x => b <<< 1 ||| if x then 1#8 else 0#8) 0#8

/-- R172: the bytes of the bits sampled on HSDI; what is left of a last byte that is cut short is no byte (entry 53). -/
def bytesOfBits : List Bool → List Byte
  | b7 :: b6 :: b5 :: b4 :: b3 :: b2 :: b1 :: b0 :: rest =>
    byteOfBits [b7, b6, b5, b4, b3, b2, b1, b0] :: bytesOfBits rest
  | _ => []

/-- R178: the frame's last byte has left when the status byte and the whole frame have been clocked. -/
def Exchange.whole (e : Exchange) (clocked : Nat) : Bool :=
  match e.frame with
  | some q => q.frame.bytes.length + 1 ≤ clocked
  | none => false

/-! ### Orders and downward chain frames (2.1, 11.1) -/

def echoCode : Byte := 0xF0#8
def setHoldoffCode : Byte := 0xF1#8
def restCode : Byte := 0xF2#8
def rouseCode : Byte := 0xF3#8

def Order.echo (position : Nat) : Order := ⟨position, echoCode, [], .echo⟩
def Order.setHoldoff (position : Nat) (value : BitVec 16) : Order :=
  ⟨position, setHoldoffCode, bytes16 value, .setHoldoff value⟩
def Order.rest : Order := ⟨0, restCode, [], .rest⟩
def Order.rouse : Order := ⟨0, rouseCode, [], .rouse⟩

/-- R23: the frame time in µs of an ORDER with d data bytes is (7 + d) × 5. -/
def Order.frameTime (o : Order) : Nat := (7 + o.data.length) * 5

/-- R23: a TRIGGER takes 40 µs. -/
def triggerFrameTime : Nat := 40

/-- A chain frame after its delimiter (R183). -/
def chainFrame (kind : Byte) (tag : BitVec 4) (address : Byte) (payload : List Byte) : List Byte :=
  let body := ((kind <<< 4) ||| tag.zeroExtend 8) :: address :: byteOfNat payload.length :: payload
  body ++ bytes16 (crc16 body)

def triggerFrame (tag : BitVec 4) (number : RoundNumber) (kind : SampleKind) : List Byte :=
  0xA5#8 :: chainFrame 0x01#8 tag 0x00#8 [number.truncate 8, kind.code]

def orderFrame (o : Order) (tag : BitVec 4) : List Byte :=
  0xA5#8 :: chainFrame 0x02#8 tag (byteOfNat o.position) (o.code :: o.data)

/-! ### Upward chain frames (R23, R183) -/

/-- The greatest payload of an upward kind, absent for a kind that is not upward (11.1). -/
def upwardGreatest : Nat → Option Nat
  | 8 => some 64
  | 9 => some 44
  | 10 => some 1
  | _ => none

/-- R23, R183: what an upward frame is taken for, from the bytes after its delimiter: a good frame of its kind, a
SAMPLE SET that fails its check, or nothing (discarded). A length over the greatest of the kind ends the frame at its
length byte. The code of an ALERT without a payload is free (entry 9). -/
def judgeUpward (c : Chain) (frame : List Byte) (start : Stamp) : Option Instr :=
  match frame with
  | k :: a :: l :: rest =>
    let kind := (k >>> 4).toNat
    match upwardGreatest kind with
    | none => none
    | some greatest =>
      let n := l.toNat
      let good := n ≤ greatest && bytes16 (crc16 (k :: a :: l :: rest.take n)) == (rest.drop n).take 2
      let payload := rest.take n
      if kind == 9 then some (if good then .sampleSet c a payload else .sampleSetCheckFailed c a)
      else if !good then none
      else if kind == 8 then some (.answer c (k.truncate 4) a payload start)
      else some (.alert c a (payload.headD Config.missingAlertCode))
  | _ => none

/-- R183: the bytes after the delimiter are a whole frame: the last check byte has come, or the frame ends at its length byte
because the kind is not upward or the length exceeds the greatest of the kind. -/
def frameEnds (frame : List Byte) : Bool :=
  match frame with
  | k :: _ :: l :: rest =>
    match upwardGreatest (k >>> 4).toNat with
    | some greatest => greatest < l.toNat || rest.length == l.toNat + 2
    | none => true
  | _ => false

/-- 11.1: a byte on a chain, ten bit times: a start bit, eight data bits, the least significant first, and a stop bit (entry 54). -/
def lineBits (b : Byte) : List Bool := false :: (List.range 8).map (fun n => b.getLsbD n) ++ [true]

/-- 11.1: the byte of ten bits of a chain, absent where the first is no start bit or the last no stop bit (entry 54). -/
def byteOfLine : List Bool → Option Byte
  | [false, b0, b1, b2, b3, b4, b5, b6, b7, true] => some (byteOfBits [b7, b6, b5, b4, b3, b2, b1, b0])
  | _ => none

/-- R3, 11.1: the start instant of a byte whose last bit arrives now, 5 µs after its first. -/
def byteStart (now : Stamp) : Stamp := { now with instant := now.instant - 5#32 }

/-- R3, R183: a byte arrives at a Chain Port: what the reception then holds, and what a frame that ends with it is taken for.
The start instant of a frame is that of its delimiter. -/
def Reception.take (r : Reception) (c : Chain) (now : Stamp) (b : Byte) : Reception × Option Instr :=
  match r with
  | .hunting => (if b = 0xA5#8 then .frame (byteStart now) [] else .hunting, none)
  | .frame start bytes =>
    let frame := bytes ++ [b]
    if frameEnds frame then (.hunting, judgeUpward c frame start) else (.frame start frame, none)

/-- A SAMPLE SET payload read by its counts (R183): `lists` is absent when the counts are out of range or the length
does not match them. -/
structure SampleSet where
  roundLow   : Byte
  nodeReset  : Bool
  localFault : Bool
  lists      : Option (List (BitVec 16) × List (BitVec 16))
  deriving DecidableEq, Repr

/-- Pairs of bytes as 16-bit values. -/
def wordsOf : List Byte → List (BitVec 16)
  | h :: l :: rest => word16 h l :: wordsOf rest
  | _ => []

def readSampleSet (payload : List Byte) : SampleSet :=
  let c := byteAt payload 2
  let t := byteAt payload 3
  let flags := payload.getD 1 0#8
  { roundLow := payload.headD Config.missingRoundByte
    nodeReset := flags.getLsbD 0
    localFault := flags.getLsbD 1
    lists :=
      if inRange 1 16 c && t ≤ 4 && payload.length == 4 + 2 * c + 2 * t then
        some (wordsOf ((payload.drop 4).take (2 * c)), wordsOf (payload.drop (4 + 2 * c)))
      else none }

end Sys2Proof.Machine
end

