-- ==== Sys2Proof/Machine/Flags.lean ====
section
/-! DEFINITION. The flags the rules compute from state: the link status byte (R173), the flags of a current sample
(R52), and the under-load judgement's magnitude (R112). -/

namespace Sys2Proof.Machine

/-- R175: the answer credit is 4 minus the answers owed. -/
def HostLink.credit (l : HostLink) : Nat := 4 - l.owed

def Outbound.isWoke : Outbound → Bool
  | .notice (.woke _) => true
  | .notice _ => false
  | .reply _ _ _ => false
  | .relay _ _ _ _ _ => false
  | .roundReport _ => false

/-- R149: set while a WOKE waits in the outbound queue or the latched cause set is not empty. -/
def State.wakeCausesPending (s : State) : Bool :=
  (s.link.queue.any fun q => q.frame.isWoke) || !s.sleep.latched.isEmpty

/-- The link status byte of 11.2.1; FFh while the link is SHUT (R171, R173). -/
def State.statusByte (s : State) : Byte :=
  match s.link.state with
  | .shut => 0xFF#8
  | .opened | .closing | .resetting =>
    byteOfNat (min s.link.credit 4) ||| flagByte [false, false, false, s.link.lastDiscarded, s.link.lastCheckFailed,
      s.update.latch, s.wakeCausesPending, false]

/-- R171, R172, R182, 11.5: what HSDO shifts in the exchange in progress, of which the host clocks as many bytes as it wants;
HSDO is not driven while RESET# is low. -/
def State.hsdo (s : State) (clocked : Nat) : Option (List Byte) :=
  if s.pins.reset = .high then s.link.exchange.map fun e => e.hsdo clocked else none

/-- R172: the bit that stands on HSDO in the exchange in progress, where HSDO is driven. -/
def State.hsdoBit (s : State) : Option Bool :=
  if s.pins.reset = .high then s.link.exchange.map Exchange.hsdoBit else none

/-- R52: span start is set when the stream is ABSENT or LOST at the arrival of the word. -/
def CurrentStream.startsSpan (c : CurrentStream) : Bool :=
  match c.state with
  | .absent | .lost => true
  | .live => false

/-- R52: the gap flag. -/
def CurrentStream.gapBefore (c : CurrentStream) (sequence : Byte) : Bool :=
  c.startsSpan ||
    match c.history.getLast? with
    | some newest => sequence != newest.sequence + 1#8
    | none => true

/-- The magnitude in mA of a signed current (R112, R120). -/
def magnitude (value : BitVec 24) : Nat := value.toInt.natAbs

end Sys2Proof.Machine
end

