-- ==== Sys2Proof/Machine/Captures.lean ====
section
/-! DEFINITION. The Capture Unit (chapter 5, 5.3) and the holder counts of the Round Ring (R85). -/

namespace Sys2Proof.Machine

/-! ### The current as other blocks see it (R59, R60) -/

def CurrentSample.latest (x : CurrentSample) : LatestCurrent := ⟨x.value, x.sequence, x.arrival⟩

/-- R59: the latest current, of the newest entry of the current span, absent while the stream is ABSENT. -/
def State.latestCurrent (s : State) : Option LatestCurrent :=
  match s.stream.state with
  | .absent => none
  | .live | .lost => s.stream.history.getLast?.map CurrentSample.latest

def State.currentReport (s : State) : CurrentReport := ⟨s.latestCurrent, s.stream.state⟩

/-! ### Records by number -/

def State.record (s : State) (n : RoundNumber) : Option RoundRecord := s.ring.find? fun r => r.number == n

def State.mapRecord (s : State) (n : RoundNumber) (f : RoundRecord → RoundRecord) : State :=
  { s with ring := s.ring.map fun r => if r.number == n then f r else r }

/-- R85: one more capture holds the record. -/
def RoundRecord.hold (r : RoundRecord) : RoundRecord := { r with holders := r.holders + 1 }
/-- R85: one capture less holds the record. -/
def RoundRecord.release (r : RoundRecord) : RoundRecord := { r with holders := r.holders - 1 }

/-! ### Creating a capture (R89 to R91) -/

/-- The working role of a channel, absent while UNCONFIGURED (R100). -/
def State.role (s : State) (k : ChannelId) : Option Role := s.image.map fun i => (i.channelProfile k).role

/-- R91: one channel of the contactor snapshot. -/
def State.snapshot (s : State) (k : ChannelId) : ContactorSnapshot :=
  let c := s.channel k
  ⟨s.role k, c.state, c.stuck, c.dropped, c.welded, c.debouncedClosed⟩

/-- The first value from `n` on that no capture holds, counting from 255 back to 1 and skipping 0 (R89). -/
def freeId (taken : List Byte) : Nat → Byte → Byte
  | 0, n => n
  | fuel + 1, n => if n ∈ taken ∨ n = 0#8 then freeId taken fuel (n + 1#8) else n

/-- The value after an id, 255 followed by 1. -/
def nextIdAfter (n : Byte) : Byte := if n = 0xFF#8 then 0x01#8 else n + 1#8

/-- R90: the CLOSED records of the ring newest first; a round being closed counts as CLOSED. -/
def State.closedNewestFirst (s : State) (closing : Option RoundNumber) : List RoundNumber :=
  ((s.ring.filter fun r => r.closed || closing == some r.number).map RoundRecord.number).reverse

/-- R90: the anchor round. -/
def State.anchor (s : State) (closing : Option RoundNumber) : Option RoundNumber :=
  match closing with
  | some n => some n
  | none => (s.closedNewestFirst none).head?

/-- R90: the pre rounds, the anchor first, then the other CLOSED records newest first, P at most. -/
def State.preRounds (s : State) (closing : Option RoundNumber) (p : Nat) : List RoundNumber :=
  match s.anchor closing with
  | some a => (a :: (s.closedNewestFirst closing).filter fun n => n != a).take p
  | none => []

def Capture.countPost (c : Capture) : Nat := (c.held.filter fun h => h.kind == .post).length
/-- The rounds a capture holds: the items marked HELD. -/
def Capture.countHeld (c : Capture) : Nat := (c.held.filter fun h => !h.dropped).length

/-- The capture a request creates (R90, R91). -/
def State.newCapture (s : State) (cause : CaptureCause) (closing : Option RoundNumber) : Capture :=
  let p := match s.image with | some i => i.capturePre | none => 0
  let q := match s.image with | some i => i.capturePost | none => 0
  let chosen := s.preRounds closing p
  { id := freeId (s.captures.list.map Capture.id) 256 s.captures.nextId
    cause := cause, instant := s.time, epoch := s.workingEpoch, pre := p, post := q, anchor := s.anchor closing
    held := (s.ring.filter fun r => chosen.contains r.number).map fun r => HeldRound.mk r.number .pre false
    samples := s.stream.history, stream := s.stream.state
    contactors := ⟨s.snapshot .K1, s.snapshot .K2, s.snapshot .K3, s.snapshot .K4⟩
    sequencer := s.sequencer.state, complete := q == 0 }

/-- The capture joins the list and its pre rounds are held (R85, R90). -/
def State.addCapture (s : State) (c : Capture) : State :=
  { s with
    captures := { s.captures with list := s.captures.list ++ [c], nextId := nextIdAfter c.id }
    ring := s.ring.map fun r => if c.held.any fun h => h.number == r.number then r.hold else r }

/-- R92: CAPTURE_DONE is noticed when a capture is COMPLETE. -/
def State.noticeDone (s : State) (c : Capture) : State :=
  if c.complete then s.notifyAwake (.captureDone c.id c.cause c.anchor c.countHeld) else s

/-- R89: the last-refusal record. -/
def State.recordRefusal (s : State) (cause : CaptureCause) : State :=
  { s with captures := { s.captures with lastRefusal := some (cause, s.time) } }

/-- R89: a capture request from a block, made in the course of the close of a round when `closing` names it. -/
def State.requestCapture (s : State) (cause : CaptureCause) (closing : Option RoundNumber) : State :=
  if s.captures.list.length < 3 then
    let c := s.newCapture cause closing
    (s.addCapture c).noticeDone c
  else (s.recordRefusal cause).notifyAwake (.captureRefused cause)

/-! ### Post rounds and dropped rounds (R83, R92) -/

/-- R92: a COLLECTING capture whose anchor is not the round takes it. -/
def Capture.takes (c : Capture) (n : RoundNumber) : Bool := !c.complete && c.anchor != some n

def Capture.takePost (c : Capture) (n : RoundNumber) : Capture :=
  let c := { c with held := c.held ++ [HeldRound.mk n .post false] }
  { c with complete := c.post ≤ c.countPost }

/-- R92: the captures take the closed round `n`; CAPTURE_DONE for each that becomes COMPLETE, the oldest capture first
(entry 43). -/
def State.takePostRound (s : State) (n : RoundNumber) : State :=
  let takers := s.captures.list.filter fun c => c.takes n
  let s := { s with
    captures := { s.captures with
      list := s.captures.list.map fun c => if c.takes n then c.takePost n else c }
    ring := s.ring.map fun r => if r.number == n then { r with holders := r.holders + takers.length } else r }
  takers.foldl (fun s c => s.noticeDone (c.takePost n)) s

/-- R83: each capture that holds the round marks it DROPPED. -/
def Capture.drop (c : Capture) (n : RoundNumber) : Capture :=
  { c with held := c.held.map fun h => if h.number == n && !h.dropped then { h with dropped := true } else h }

/-- R96: the records a capture holds. -/
def Capture.holds (c : Capture) (n : RoundNumber) : Bool := c.held.any fun h => h.number == n && !h.dropped

/-- R96: the capture is removed and the holder counts of its HELD rounds fall by 1. -/
def State.releaseCapture (s : State) (c : Capture) : State :=
  { s with
    captures := { s.captures with list := s.captures.list.filter fun d => d.id != c.id }
    ring := s.ring.map fun r => if c.holds r.number then r.release else r }

end Sys2Proof.Machine
end

