-- ==== Sys2Proof/Machine/Contactor.lean ====
section
/-! DEFINITION. The Contactor Drivers (chapter 6): close and open requests, the hold drive, and the arming of the
supervision window by the channel states (R131). -/

namespace Sys2Proof.Machine

/-! ### The working Contactor Profile -/

def State.shared (s : State) : Option SharedProfile := s.image.map Image.shared
def State.profile (s : State) (k : ChannelId) : Option ChannelProfile := s.image.map fun i => i.channelProfile k

/-- R100: the debounce in ms, 15 while UNCONFIGURED. -/
def State.debounce (s : State) (k : ChannelId) : Nat :=
  match s.profile k with
  | some p => p.debounce
  | none => 15

/-- The channel that plays a role (R115). -/
def State.channelOf (s : State) (r : Role) : Option ChannelId := ChannelId.all.find? fun k => s.role k == some r

/-- 6.3: a channel is closed in PULL_IN and HOLD. -/
def ChannelState.isClosed : ChannelState → Bool
  | .pullIn | .hold => true
  | .opened | .dropout => false

def State.isOpen (s : State) (k : ChannelId) : Bool := (s.channel k).state == .opened
def State.allOpen (s : State) : Bool := ChannelId.all.all s.isOpen
/-- The channels in PULL_IN or HOLD. -/
def State.closedChannels (s : State) : List ChannelId := ChannelId.all.filter fun k => (s.channel k).state.isClosed

/-! ### The supervision window follows the channels (R131) -/

def State.wmin (s : State) : Nat := match s.shared with | some p => p.wmin | none => 0
def State.wmax (s : State) : Nat := match s.shared with | some p => p.wmax | none => 0

/-- R131: armed at the event at which a channel leaves OPEN while every other is OPEN. -/
def State.armWindow (s : State) : State :=
  { s with
    window := ⟨true, some s.time, true, some (s.time + millis s.wmax), none, 0⟩ }

/-- R131: disarmed at the event at which the last channel not OPEN reaches OPEN. -/
def State.disarmWindow (s : State) : State :=
  { s with window := { s.window with armed := false, reference := none, expiry := none, lastGood := none, faults := 0 } }

/-- R131: the window is armed exactly while at least one channel is not OPEN. -/
def State.syncWindow (s : State) : State :=
  if s.allOpen then (if s.window.armed then s.disarmWindow else s)
  else if s.window.armed then s else s.armWindow

/-! ### Notices (R113) -/

def State.noticeContactor (s : State) (k : ChannelId) (before : ChannelState) (reason : ChangeReason)
    (underLoad : Bool) : State :=
  let c := s.channel k
  s.notifyAwake (.contactor k (s.role k) before c.state reason c.stuck c.dropped c.welded underLoad s.currentReport)

/-! ### Changes of channel state -/

/-- The instant a dropout begun now ends (R105). -/
def State.dropoutEnd (s : State) (k : ChannelId) : Instant :=
  s.time + millis (match s.profile k with | some p => p.dropout | none => 0)

/-- R105, R107, R109: the channel enters DROPOUT and its drive goes off. -/
def State.enterDropout (s : State) (k : ChannelId) (f : Channel → Channel) : State :=
  let c := f (s.channel k)
  (s.setChannel k { c with state := .dropout, phaseExpiry := some (s.dropoutEnd k) }).setDrive k .off |>.syncWindow

/-- R112: role NEG or POS, a latest current present, and its magnitude above the break current. -/
def State.underLoad (s : State) (k : ChannelId) : Bool :=
  match s.shared, s.role k, s.latestCurrent with
  | some p, some .neg, some c => p.breakCurrent < magnitude c.value
  | some p, some .pos, some c => p.breakCurrent < magnitude c.value
  | _, _, _ => false

def State.captureOnUnderLoad (s : State) : Bool :=
  match s.shared with
  | some p => p.captureOnUnderLoad
  | none => false

/-- R105, R111, R112: an open request. In PULL_IN or HOLD the channel goes to DROPOUT, the opening is recorded, and
an opening under load may request a capture, whose notice follows the CONTACTOR notice (entry 45); in DROPOUT or OPEN
nothing happens. -/
def State.openRequest (s : State) (k : ChannelId) (by_ : Requester) (closing : Option RoundNumber) : State :=
  let c := s.channel k
  if c.state.isClosed then
    let load := s.underLoad k
    let opening : LastOpening := ⟨s.time, by_, c.state, s.currentReport, load⟩
    let s := s.enterDropout k fun c => { c with lastOpening := some opening }
    let s := s.noticeContactor k c.state (.openRequest by_) load
    if load && s.captureOnUnderLoad then s.requestCapture (.underLoad k) closing else s
  else s

/-- Open requests of one event to several channels, whose order no rule gives (entry 3). -/
def State.openRequests (s : State) (ks : List ChannelId) (by_ : Requester) (closing : Option RoundNumber) : State :=
  s.anyOrder (ks.map fun k s => s.openRequest k by_ closing)

/-- R104: what the driver answers to a close request. -/
def State.closeAnswer (s : State) (k : ChannelId) : CloseAnswer :=
  if s.sleep.op ≠ .run ∨ (s.channel k).settleExpiry.isSome then .refused
  else
    match (s.channel k).state with
    | .opened => .taken
    | .pullIn | .hold => .already
    | .dropout => .refused

/-- R104: a close request of the Connection Sequencer. -/
def State.closeRequest (s : State) (k : ChannelId) : State :=
  match s.closeAnswer k with
  | .taken =>
    let c := s.channel k
    let ends := s.time + millis (match s.profile k with | some p => p.pullIn | none => 0)
    let s := (s.setChannel k { c with state := .pullIn, phaseExpiry := some ends }).setDrive k ⟨true, none⟩ |>.syncWindow
    s.noticeContactor k .opened .close false
  | .already | .refused => s

/-! ### The hold drive (R106) -/

/-- The hold duty in force: K1's for a linked channel other than K1 (R100). -/
def Image.dutyOf (i : Image) (k : ChannelId) : Nat :=
  if k ≠ .K1 ∧ (i.channelProfile k).linked then (i.channelProfile .K1).duty else (i.channelProfile k).duty

/-- R106: a period begins with the profile in force at its start; the on-time is rounded down to a whole µs. -/
def State.startPwm (s : State) (k : ChannelId) : State :=
  match s.image with
  | some i =>
    let p := (i.channelProfile k).period
    s.setDrive k ⟨true, some ⟨s.time, p, p * Image.dutyOf i k / 100⟩⟩
  | none => s

/-- The on-time of the period in progress is over while the drive is on, or the period is over. -/
def State.pwmOffDue (s : State) (k : ChannelId) : Bool :=
  match s.drives.get k with
  | ⟨true, some p⟩ => p.onTime < p.period && reached (p.start + micros p.onTime) s.time
  | _ => false

def State.pwmPeriodDue (s : State) (k : ChannelId) : Bool :=
  match (s.drives.get k).pwm with
  | some p => reached (p.start + micros p.period) s.time
  | none => false

/-- R106: the coil drive switches at the end of the on-time and at the end of the period, in HOLD. -/
def State.pwmStep (s : State) (k : ChannelId) : State :=
  if (s.channel k).state = .hold then
    if s.pwmPeriodDue k then s.startPwm k
    else if s.pwmOffDue k then s.setDrive k { s.drives.get k with on := false }
    else s
  else s

/-! ### Feedback (R102) -/

/-- R102: the raw feedback takes a level, which starts or cancels a debounce. -/
def State.takeRaw (s : State) (k : ChannelId) (closed : Bool) : State :=
  let c := s.channel k
  if closed = c.rawClosed then s
  else
    s.setChannel k
      { c with
        rawClosed := closed
        debounceExpiry := if closed = c.debouncedClosed then none else some (s.time + millis (s.debounce k)) }

/-- R102: sampling stops; the levels stay and a debounce expiry that was set becomes absent. -/
def Channel.stopSampling (c : Channel) : Channel := { c with debounceExpiry := none }

/-- R102: sampling resumes; a level that differs from the debounced feedback starts a debounce. -/
def State.resumeChannel (s : State) (k : ChannelId) : State :=
  let c := s.channel k
  let level := s.pins.kfb.get k
  s.setChannel k
    { c with
      rawClosed := level
      debounceExpiry := if level = c.debouncedClosed then none else some (s.time + millis (s.debounce k)) }

def State.stopOscillator (s : State) : State :=
  { s with
    oscillator := false
    channels := ⟨s.channels.k1.stopSampling, s.channels.k2.stopSampling, s.channels.k3.stopSampling,
      s.channels.k4.stopSampling⟩ }

def State.startOscillator (s : State) : State :=
  (((({ s with oscillator := true }).resumeChannel .K1).resumeChannel .K2).resumeChannel .K3).resumeChannel .K4

end Sys2Proof.Machine
end

