-- ==== Sys2Proof/Machine/Sequencer.lean ====
section
/-! DEFINITION. The Connection Sequencer (chapter 7): its steps on the reports of the drivers, on current words and on
action openings. -/

namespace Sys2Proof.Machine

def State.setSequencer (s : State) (f : Sequencer → Sequencer) : State := { s with sequencer := f s.sequencer }

/-- R117: the precharge items become absent and the good-word count 0 when PRECHARGING is left. -/
def Sequencer.clearPrecharge (q : Sequencer) : Sequencer :=
  { q with
    prechargeStart := none, minimumExpiry := none, maximumExpiry := none, goodWords := 0, minimumTaken := false }

/-- R128: the last outcome takes the outcome and SEQUENCE is noticed. -/
def State.noticeSequence (s : State) (o : SeqOutcome) (left : Option SeqState) (precharge : Option Precharge)
    (trip : Option Cause) (words : Option Nat) (current : Option CurrentReport) : State :=
  (s.setSequencer fun q => { q with lastOutcome := some (o, s.time) }).notifyAwake
    (.sequence o s.time left precharge trip words current)

/-- A close request to the channel of a role. -/
def State.closeRole (s : State) (r : Role) : State :=
  match s.channelOf r with
  | some k => s.closeRequest k
  | none => s

/-- An outcome is noticed and channels get their open requests, in one event that orders none of them (entry 3). -/
def State.noticeWithOpenings (s : State) (notice : State → State) (ks : List ChannelId) (closing : Option RoundNumber) :
    State :=
  s.anyOrder (notice :: ks.map fun k s => s.openRequest k .sequencer closing)

/-- R123: the Sequencer becomes FAILED: every channel in PULL_IN or HOLD gets an open request, the precharge items
are cleared and SEQUENCE is noticed; no rule orders the notice and the openings (entry 3). The state changes before the
openings (entry 44). -/
def State.enterFailed (s : State) (reason : FailReason) (closing : Option RoundNumber) : State :=
  let left := s.sequencer.state
  let words := if reason = .prechargeTimeout then some s.sequencer.goodWords else none
  let s := s.setSequencer fun q => { q.clearPrecharge with state := .failed }
  s.noticeWithOpenings
    (fun s => s.noticeSequence (.failed reason) (some left) none none words (some s.currentReport)) s.closedChannels closing

/-- R124: entry to TRIPPED; from DISCONNECTING every channel still in PULL_IN or HOLD gets an open request, after the change
of state (entry 44). -/
def State.enterTripped (s : State) (cause : Cause) (closing : Option RoundNumber) : State :=
  let left := s.sequencer.state
  let disconnecting := left == .disconnecting
  let s := s.setSequencer fun q =>
    { q.clearPrecharge with state := .tripped, tripCause := some cause, disconnectPending := disconnecting }
  s.noticeWithOpenings (fun s => s.noticeSequence .tripped (some left) none (some cause) none none)
    (if disconnecting then s.closedChannels else []) closing

/-- R124: a fired action with a non-empty open mask tells the Sequencer of its opening. -/
def State.actionOpening (s : State) (cause : Cause) (closing : Option RoundNumber) : State :=
  match s.sequencer.state with
  | .idle | .tripped => s
  | .negClosing | .precharging | .posClosing | .preReleasing | .connected | .disconnecting | .failed =>
    s.enterTripped cause closing

/-- Entry to IDLE (R125, R126, R124): SEQUENCE is noticed with outcome DISCONNECTED. -/
def State.enterIdle (s : State) : State :=
  let left := s.sequencer.state
  (s.setSequencer fun q => { q with state := .idle }).noticeSequence .disconnected (some left) none none none none

/-- R126: NEG is opened when POS, PRE and AUX are all OPEN; the state becomes IDLE when all four are. That a weld report which
finds the channels so has these effects, like any other report, is the model's choice (entry 57). -/
def State.disconnectProgress (s : State) (closing : Option RoundNumber) : State :=
  if s.allOpen then s.enterIdle
  else
    match s.channelOf .neg with
    | some k =>
      if (s.channel k).state.isClosed && ChannelId.all.all (fun j => j == k || s.isOpen j) then
        s.openRequest k .sequencer closing
      else s
    | none => s

/-- R119: NEG has pulled in. -/
def State.negPulledIn (s : State) (closing : Option RoundNumber) : State :=
  if s.inhibit.isEmpty then (s.closeRole .pre).setSequencer fun q => { q with state := .precharging }
  else s.enterFailed .inhibited closing

/-- R120: PRE has pulled in and the precharge begins. -/
def State.prePulledIn (s : State) : State :=
  match s.shared with
  | some p =>
    s.setSequencer fun q =>
      { q with
        prechargeStart := some s.time, minimumExpiry := some (s.time + millis p.prechargeMinimum),
        maximumExpiry := some (s.time + millis p.prechargeMaximum), goodWords := 0, minimumTaken := false }
  | none => s

/-- R122: POS has pulled in; PRE is released. -/
def State.posPulledIn (s : State) (closing : Option RoundNumber) : State :=
  let s :=
    match s.channelOf .pre with
    | some k => s.openRequest k .sequencer closing
    | none => s
  s.setSequencer fun q => { q with state := .preReleasing }

/-- R122: the dropout of PRE decides the end of the connection. -/
def State.preReleased (s : State) (k : ChannelId) (closing : Option RoundNumber) : State :=
  if (s.channel k).welded then s.enterFailed (.fault .welded k) closing
  else
    (s.setSequencer fun q => { q with state := .connected }).noticeSequence .connected none
      s.sequencer.lastPrecharge none none (some s.currentReport)

/-- R121: precharge ends well. -/
def State.prechargeEndsWell (s : State) : State :=
  let s := s.setSequencer fun q =>
    { q with lastPrecharge := q.prechargeStart.map fun start => ⟨start, s.time, q.goodWords⟩ }
  if s.inhibit.isEmpty then (s.closeRole .pos).setSequencer fun q => { q.clearPrecharge with state := .posClosing }
  else s.enterFailed .inhibited none

/-- R123: the fault a report of a channel names, as the state's row of the table has it. -/
def seqFault (state : SeqState) (role : Option Role) (reason : ChangeReason) (welded : Bool) : Option FaultKind :=
  match state, reason, role with
  | .negClosing, .stuck, some .neg => some .stuck
  | .precharging, .stuck, some .pre => some .stuck
  | .precharging, .dropped, some .neg => some .dropped
  | .precharging, .dropped, some .pre => some .dropped
  | .posClosing, .stuck, some .pos => some .stuck
  | .posClosing, .dropped, some .neg => some .dropped
  | .posClosing, .dropped, some .pre => some .dropped
  | .preReleasing, .dropped, some .neg => some .dropped
  | .preReleasing, .dropped, some .pos => some .dropped
  | .connected, .dropped, some .neg => some .dropped
  | .connected, .dropped, some .pos => some .dropped
  | .tripped, .stuck, some .neg => some .stuck
  | .tripped, .stuck, some .pre => some .stuck
  | .tripped, .stuck, some .pos => some .stuck
  | .tripped, .dropped, some .neg => some .dropped
  | .tripped, .dropped, some .pre => some .dropped
  | .tripped, .dropped, some .pos => some .dropped
  | .negClosing, .feedback, _ => if welded then some .welded else none
  | .precharging, .feedback, _ => if welded then some .welded else none
  | .posClosing, .feedback, _ => if welded then some .welded else none
  | .preReleasing, .feedback, _ => if welded then some .welded else none
  | _, _, _ => none

/-- The step a report brings when it names no fault (R119, R120, R122, R124, R126). In DISCONNECTING, and in TRIPPED with the
disconnection pending, a FEEDBACK report that finds all four channels OPEN makes the state IDLE (DESIGN CHOICE, entry 57). -/
def State.sequencerStep (s : State) (k : ChannelId) (reason : ChangeReason) (closing : Option RoundNumber) : State :=
  match s.sequencer.state, reason, s.role k with
  | .negClosing, .pullInEnd, some .neg => s.negPulledIn closing
  | .precharging, .pullInEnd, some .pre => s.prePulledIn
  | .posClosing, .pullInEnd, some .pos => s.posPulledIn closing
  | .preReleasing, .dropoutEnd, some .pre => s.preReleased k closing
  | .disconnecting, _, _ => s.disconnectProgress closing
  | .tripped, _, _ => if s.sequencer.disconnectPending && s.allOpen then s.enterIdle else s
  | _, _, _ => s

/-- R117: the Sequencer takes a report of a change of channel state (R113). -/
def State.sequencerReport (s : State) (k : ChannelId) (reason : ChangeReason) (closing : Option RoundNumber) : State :=
  match seqFault s.sequencer.state (s.role k) reason (s.channel k).welded with
  | some f => s.enterFailed (.fault f k) closing
  | none => s.sequencerStep k reason closing

/-- R122, R123: the fault with which a fault report makes the Sequencer FAILED. -/
def failureOf (state : SeqState) (role : Option Role) (reason : ChangeReason) (welded : Bool) : Option FaultKind :=
  match seqFault state role reason welded with
  | some f => some f
  | none =>
    if state = .preReleasing ∧ reason = .dropoutEnd ∧ role = some .pre ∧ welded = true then some .welded else none

/-- R124: the report of a fault that came up in the state `before`, taken before the opening of its own fault action or after it:
one that makes the Sequencer FAILED does so where that opening has made it TRIPPED too (entry 51). -/
def State.faultReport (s : State) (before : SeqState) (k : ChannelId) (reason : ChangeReason) : State :=
  match s.sequencer.state, failureOf before (s.role k) reason (s.channel k).welded with
  | .tripped, some f => s.enterFailed (.fault f k) none
  | _, _ => s.sequencerReport k reason none

/-- R120: the good-word count after a word. -/
def goodWordsAfter (count endCurrent : Nat) (value : BitVec 24) (gap : Bool) : Nat :=
  if endCurrent < magnitude value then 0 else if gap then 1 else min (count + 1) 64

/-- R120, R121: a current word in PRECHARGING once PRE has reached HOLD. -/
def State.prechargeWord (s : State) (value : BitVec 24) (gap : Bool) : State :=
  match s.shared, s.sequencer.state, s.sequencer.prechargeStart with
  | some p, .precharging, some _ =>
    let s := s.setSequencer fun q => { q with goodWords := goodWordsAfter q.goodWords p.endCurrent value gap }
    if s.sequencer.minimumTaken && p.endCount ≤ s.sequencer.goodWords then s.prechargeEndsWell else s
  | _, _, _ => s

/-! ### CONNECT and DISCONNECT (R118, R125), AUX (R127) -/

/-- R118: the reason CONNECT is refused for, in the order of the table. -/
def State.connectRefusal (s : State) : Option Reason :=
  if s.sleep.op ≠ .run then some .state
  else if s.sequencer.state ≠ .idle then some .state
  else if ¬ s.inhibit.isEmpty then some .inhibited
  else if s.stream.state ≠ .live then some .current
  else if ChannelId.all.any fun k => (s.channel k).welded then some .welded
  else if ChannelId.all.any fun k => (s.channel k).settleExpiry.isSome then some .settle
  else none

/-- R118. -/
def State.requestConnect (s : State) (tag : Byte) : State :=
  match s.connectRefusal with
  | some r => s.refuse tag .refusedState r
  | none => ((s.reply tag .accepted .none).setSequencer fun q => { q with state := .negClosing }).closeRole .neg

/-- The channels of a list of roles. -/
def State.channelsOf (s : State) (rs : List Role) : List ChannelId := (rs.map s.channelOf).reduceOption

/-- The channels of a list of roles that an open request would open. -/
def State.closedOf (s : State) (rs : List Role) : List ChannelId :=
  (s.channelsOf rs).filter fun k => (s.channel k).state.isClosed

/-- R125: DISCONNECT. The channels open before the state changes (entry 31). In an abort no rule orders the notice of ABORTED and
the openings with their CONTACTOR notices (entry 3). Where CONNECTED finds POS, PRE and AUX all OPEN, no report follows: NEG, or
the end in IDLE where NEG is OPEN too, waits for the next report of a change (R126, entry 47). -/
def State.requestDisconnect (s : State) (tag : Byte) : State :=
  match s.sequencer.state with
  | .idle => s.reply tag .done .none
  | .connected =>
    let s := s.reply tag .accepted .none
    let s := s.openRequests (s.closedOf [.pos, .aux]) .sequencer none
    s.setSequencer fun q => { q with state := .disconnecting }
  | .negClosing | .precharging | .posClosing | .preReleasing =>
    let left := s.sequencer.state
    let s := s.reply tag .accepted .none
    let s := s.noticeWithOpenings (fun s => s.noticeSequence .aborted (some left) none none none none) s.closedChannels none
    s.setSequencer fun q => { q.clearPrecharge with state := .disconnecting }
  | .tripped | .failed =>
    if s.allOpen then (s.reply tag .done .none).enterIdle
    else
      let s := s.reply tag .accepted .none
      let s := s.openRequests s.closedChannels .sequencer none
      s.setSequencer fun q => { q with state := .disconnecting }
  | .disconnecting => s.reply tag .accepted .none

/-- R127: AUX_CLOSE; no rule orders its REPLY and its CONTACTOR notice (entry 3). -/
def State.requestAuxClose (s : State) (tag : Byte) : State :=
  if s.sequencer.state ≠ .connected then s.refuse tag .refusedState .state
  else if ¬ s.inhibit.isEmpty then s.refuse tag .refusedState .inhibited
  else
    match s.channelOf .aux with
    | none => s.reply tag .done .none
    | some k =>
      match s.closeAnswer k with
      | .taken => s.anyOrder [fun s => s.reply tag .done .none, fun s => s.closeRequest k]
      | .already => s.reply tag .done .none
      | .refused => s.reply tag .busy .none

/-- R127: AUX_OPEN. -/
def State.requestAuxOpen (s : State) (tag : Byte) : State :=
  s.anyOrder
    ((fun s => s.reply tag .done .none) ::
      (s.closedOf [.aux]).map fun k s => s.openRequest k .sequencer none)

end Sys2Proof.Machine
end

