-- ==== Sys2Proof/Machine/Actions.lean ====
section
/-! DEFINITION. The firing of an action (R73 to R80), the faults of the Contactor Drivers that fire one (R107 to R110)
and the supervision window's faults (R132, R133). -/

namespace Sys2Proof.Machine

/-! ### Firing (R75 to R78) -/

/-- R76: the cause joins the reclose inhibit set unless an equal one is there. -/
def State.inhibitWith (s : State) (c : Cause) : State :=
  if c ∈ s.inhibit then s else { s with inhibit := s.inhibit ++ [c] }

/-- The effects of a firing, which no rule orders (R75, entry 3). -/
def firingEffects (a : ActionEntry) (cause : Cause) (closing : Option RoundNumber) : List (State → State) :=
  (a.opens.map fun k s => s.openRequest k (.action cause) closing) ++
  (if a.opens.isEmpty then [] else [fun s => s.actionOpening cause closing]) ++
  (if a.inhibit then [fun s => s.inhibitWith cause] else []) ++
  (if a.capture then [fun s => s.requestCapture (.action cause) closing] else []) ++
  (if a.wakeHost then [fun s => s.latch .breach] else [])

/-- R73, R75: the action of an index fires for a cause; "none" and UNCONFIGURED fire nothing. -/
def State.fire (s : State) (action : Option Nat) (cause : Cause) (closing : Option RoundNumber) : State :=
  match action, s.image with
  | some n, some i => s.anyOrder (firingEffects (i.actionEntry n) cause closing)
  | _, _ => s

/-! ### Faults of a channel (R110) -/

/-- The action the working Contactor Profile names for a fault kind (R100). -/
def State.faultAction (s : State) (f : FaultKind) : Option Nat :=
  match s.shared with
  | some p =>
    match f with
    | .stuck => p.stuckAction
    | .dropped => p.droppedAction
    | .welded => p.weldAction
  | none => none

/-- The record of R110 for a fault found now. -/
def State.faultRecord (s : State) (f : FaultKind) (found : ChannelState) : LastFault :=
  ⟨f, s.time, found, s.currentReport⟩

/-- After the CONTACTOR notice the change is reported to the Sequencer and the fault action fires; no rule orders the
two (R124, entry 3). -/
def State.reportFault (s : State) (k : ChannelId) (f : FaultKind) (reason : ChangeReason) : State :=
  let action := s.faultAction f
  let before := s.sequencer.state
  s.anyOrder
    ((fun s => s.faultReport before k reason) ::
      (if action.isSome then [fun s => s.fire action (.contactor k f) none] else []))

/-- R107, R109, R110: STUCK or DROPPED: the channel enters DROPOUT with its flag set and its last fault written. -/
def State.dropoutFault (s : State) (k : ChannelId) (f : FaultKind) (reason : ChangeReason) (mark : Channel → Channel) :
    State :=
  let before := (s.channel k).state
  let fault := s.faultRecord f before
  let s := s.enterDropout k fun c => { mark c with lastFault := some fault }
  (s.noticeContactor k before reason false).reportFault k f reason

/-- R109, R103: the debounced feedback reads closed in OPEN: WELDED is set if it was clear. -/
def State.weldInOpen (s : State) (k : ChannelId) : State :=
  let c := s.channel k
  if c.welded then s
  else
    let fault := s.faultRecord .welded .opened
    let s := s.setChannel k { c with welded := true, lastFault := some fault }
    (s.noticeContactor k .opened .feedback false).reportFault k .welded .feedback

/-- R109: the debounced feedback becomes open in OPEN: WELDED is cleared if it was set. -/
def State.unweldInOpen (s : State) (k : ChannelId) : State :=
  let c := s.channel k
  if c.welded then
    let s := s.setChannel k { c with welded := false }
    (s.noticeContactor k .opened .feedback false).sequencerReport k .feedback none
  else s

/-- R107: the end of PULL_IN. -/
def State.pullInEnds (s : State) (k : ChannelId) : State :=
  let c := s.channel k
  if c.debouncedClosed then
    let s := (s.setChannel k { c with state := .hold, phaseExpiry := none }).startPwm k
    (s.noticeContactor k .pullIn .pullInEnd false).sequencerReport k .pullInEnd none
  else s.dropoutFault k .stuck .stuck fun c => { c with stuck := true }

/-- R108: the end of DROPOUT. -/
def State.dropoutEnds (s : State) (k : ChannelId) : State :=
  let c := s.channel k
  let opened := { c with state := .opened, phaseExpiry := none, stuck := false, dropped := false }
  if c.debouncedClosed && !c.welded then
    let fault := s.faultRecord .welded .dropout
    let s := (s.setChannel k { opened with welded := true, lastFault := some fault }).syncWindow
    (s.noticeContactor k .dropout .dropoutEnd false).reportFault k .welded .dropoutEnd
  else
    let s := (s.setChannel k { opened with welded := c.debouncedClosed }).syncWindow
    (s.noticeContactor k .dropout .dropoutEnd false).sequencerReport k .dropoutEnd none

/-- R109: a change of the debounced feedback, judged in HOLD and in OPEN. -/
def State.judgeFeedback (s : State) (k : ChannelId) : State :=
  let c := s.channel k
  match c.state, c.debouncedClosed with
  | .hold, false => s.dropoutFault k .dropped .dropped fun c => { c with dropped := true }
  | .hold, true => s
  | .opened, true => s.weldInOpen k
  | .opened, false => s.unweldInOpen k
  | .pullIn, _ => s
  | .dropout, _ => s

/-- R102, R103: at the debounce expiry the debounced feedback takes the new level; during the reset settle the change
is not judged. -/
def State.debounceEnds (s : State) (k : ChannelId) : State :=
  let c := s.channel k
  let s := s.setChannel k { c with debouncedClosed := c.rawClosed, debounceExpiry := none }
  if c.settleExpiry.isSome || c.rawClosed == c.debouncedClosed then s else s.judgeFeedback k

/-- R103: at the settle expiry a closed feedback with the channel OPEN is judged as in R109. -/
def State.settleEnds (s : State) (k : ChannelId) : State :=
  let c := s.channel k
  let s := s.setChannel k { c with settleExpiry := none }
  if c.debouncedClosed && c.state == .opened then s.weldInOpen k else s

/-! ### The supervision window (R132, R133) -/

/-- R133: a supervision fault; SUPERVISION_FAULT shows the raised count, also where the fault brings a loss (entry 46). -/
def State.superviseFault (s : State) (kind : SupervisionFault) : State :=
  let count := s.window.faults + 1
  let expected := s.window.lastGood.map (· + 1#8)
  let s := s.notify (.supervisionFault kind s.time expected count)
  let s := { s with
    window := { s.window with
      reference := some s.time, earlyIsWmin := false, expiry := some (s.time + millis s.wmax), faults := count } }
  match s.shared with
  | some p =>
    if p.faultLimit ≤ count then
      let s := s.notify (.supervisionLoss s.time kind)
      let s := s.fire p.supervisionAction .supervision none
      { s with window := { s.window with faults := 0 } }
    else s
  | none => s

/-- R131: the early bound in µs. -/
def State.earlyBound (s : State) : Nat := if s.window.earlyIsWmin then s.wmin * 1000 else 0

/-- R132: the judgement of a sequence number now. -/
def State.judgeSupervise (s : State) (n : Byte) : Judgement :=
  match s.window.armed, s.window.reference with
  | true, some reference =>
    if (s.time - reference).toNat < s.earlyBound then .early
    else
      match s.window.lastGood with
      | some g => if n = g + 1#8 then .good else .sequence
      | none => .good
  | _, _ => .disarmed

/-- The fault count after a judgement (R132, R133): 0 where the fault brought a loss (entry 46). -/
def State.faultsAfter (s : State) (j : Judgement) : Nat :=
  match j with
  | .disarmed => s.window.faults
  | .good => 0
  | .early | .sequence =>
    match s.shared with
    | some p => if p.faultLimit ≤ s.window.faults + 1 then 0 else s.window.faults + 1
    | none => s.window.faults + 1

/-- R132: SUPERVISE. The REPLY carries the judgement, the fault count after it and the expected sequence number; no
rule orders it and the notices of a fault (entry 3). -/
def State.requestSupervise (s : State) (tag n : Byte) : State :=
  let j := s.judgeSupervise n
  let expected := s.window.lastGood.map (· + 1#8)
  let answer := fun s' : State => s'.reply tag .done (.supervision j (s.faultsAfter j) expected)
  match j with
  | .disarmed => answer s
  | .good =>
    answer { s with
      window := { s.window with
        reference := some s.time, earlyIsWmin := true, expiry := some (s.time + millis s.wmax), lastGood := some n,
        faults := 0 } }
  | .early => s.anyOrder [answer, fun s => s.superviseFault .early]
  | .sequence => s.anyOrder [answer, fun s => s.superviseFault .sequence]

end Sys2Proof.Machine
end

