-- ==== Sys2Proof/Machine/Limits.lean ====
section
/-! DEFINITION. The Limit Evaluator (chapter 4): covered values, verdicts, run states, and the evaluation of a closed
round and of a current word. -/

namespace Sys2Proof.Machine

/-! ### Covered node entries and values (R62) -/

/-- The node entries a limit entry covers, each with its chain, chain A first (R62). -/
def coveredReadings (e : LimitEntry) (r : RoundRecord) : List (Chain × Reading) :=
  (r.parts.filter fun p => e.chains.contains p.chain).flatMap fun p =>
    (p.readings.filter fun x => inRange e.firstPosition e.lastPosition x.position).map fun x => (p.chain, x)

/-- A node entry whose values are judged: OK or UNALIGNED (R62). -/
def Reading.delivered (x : Reading) : Bool :=
  match x.status with
  | .ok | .unaligned => true
  | .missing | .checkFailed => false

/-- The list of a node entry that a quantity judges, as numbers in the quantity's unit. -/
def quantityValues (q : Quantity) (x : Reading) : List Int :=
  match q with
  | .cell | .spread => x.cells.map fun v => (v.toNat : Int)
  | .temp => x.temps.map BitVec.toInt
  | .current => []

/-- The covered values in the order of R64: chain, position, channel. -/
def coveredValues (e : LimitEntry) (r : RoundRecord) : List Located :=
  ((coveredReadings e r).filter fun x => x.2.delivered).flatMap fun x =>
    ((quantityValues e.quantity x.2).zipIdx.filter fun v => inRange e.firstChannel e.lastChannel (v.2 + 1)).map
      fun v => Located.mk x.1 x.2.position (v.2 + 1) v.1

/-! ### Verdicts (R64 to R66) -/

/-- R61, note 2. -/
def outside (e : LimitEntry) (v : Int) : Bool := v < e.low || e.high < v

/-- Some covered node entry is MISSING or CHECK_FAILED. -/
def incomplete (e : LimitEntry) (r : RoundRecord) : Bool := (coveredReadings e r).any fun x => !x.2.delivered

/-- The first of the largest values (R65). -/
def largestOf : List Located → Option Located
  | [] => none
  | x :: rest =>
    match largestOf rest with
    | some y => if x.value < y.value then some y else some x
    | none => some x

/-- The first of the smallest values (R65). -/
def smallestOf : List Located → Option Located
  | [] => none
  | x :: rest =>
    match smallestOf rest with
    | some y => if y.value < x.value then some y else some x
    | none => some x

/-- A verdict with what a TRIP notice shows of a violation. -/
abbrev Finding := Verdict × Option TripDetail

def withoutViolation (e : LimitEntry) (r : RoundRecord) : Finding :=
  (if incomplete e r then .unknown else .within, none)

/-- R64, R65: the verdict of a round. -/
def judgeRound (e : LimitEntry) (r : RoundRecord) : Finding :=
  match e.quantity with
  | .cell | .temp =>
    match (coveredValues e r).find? fun v => outside e v.value with
    | some v => (.violate, some (.value v))
    | none => withoutViolation e r
  | .spread =>
    match largestOf (coveredValues e r), smallestOf (coveredValues e r) with
    | some l, some s =>
      if e.high < l.value - s.value then (.violate, some (.spread (l.value - s.value) l s)) else withoutViolation e r
    | _, _ => withoutViolation e r
  | .current => withoutViolation e r

/-- R66: the verdict of a word. -/
def judgeWord (e : LimitEntry) (value : BitVec 24) : Finding :=
  if outside e value.toInt then (.violate, some (.current value)) else (.within, none)

/-! ### Applicability (R63) -/

/-- The sample kind measured the quantity. -/
def kindMeasures (k : SampleKind) (q : Quantity) : Bool :=
  match q, k with
  | .cell, .cells => true
  | .cell, .both => true
  | .spread, .cells => true
  | .spread, .both => true
  | .temp, .temps => true
  | .temp, .both => true
  | _, _ => false

def appliesToRound (e : LimitEntry) (r : RoundRecord) : Bool :=
  (if r.step == .patrol then e.asleep else e.awake) && kindMeasures r.kind e.quantity &&
    !(coveredReadings e r).isEmpty

def appliesToWord (e : LimitEntry) : Bool := e.quantity == .current && e.awake

/-! ### Run states (R67 to R71) -/

def LimitRun.normal : LimitRun := ⟨.normal, 0, none⟩

/-- R68: the run states of a new table. -/
def freshLimits : List LimitRun := List.replicate 64 .normal

/-- R67: the state and the run count after a verdict, and the change. -/
def runAfter (r : RunState) (count persistence : Nat) (v : Verdict) : RunState × Nat × Option LimitChange :=
  match r, v with
  | .normal, .violate => if persistence ≤ count + 1 then (.tripped, 0, some .trip) else (.normal, count + 1, none)
  | .normal, .within => (.normal, 0, none)
  | .tripped, .violate => (.tripped, 0, none)
  | .tripped, .within => if persistence ≤ count + 1 then (.normal, 0, some .release) else (.tripped, count + 1, none)
  | .normal, .unknown => (.normal, count, none)
  | .tripped, .unknown => (.tripped, count, none)

/-- The step field a notice carries for a round (R71). -/
def State.stepOf (s : State) (source : LimitSource) : Option RoundStep :=
  match source with
  | .round n => (s.record n).map RoundRecord.step
  | .word _ _ => none

/-- R67, R69, R71: a verdict on entry `i` changes its run state; TRIP is noticed before the action fires. -/
def State.applyVerdict (s : State) (i : Nat) (e : LimitEntry) (f : Finding) (source : LimitSource)
    (closing : Option RoundNumber) : State :=
  let run := s.limits.getD i .normal
  let after := runAfter run.state run.count e.persistence f.1
  let written : Option LastChange :=
    match after.2.2 with
    | some c => some ⟨c, source, s.workingEpoch⟩
    | none => run.lastChange
  let s := { s with limits := s.limits.set i ⟨after.1, after.2.1, written⟩ }
  match after.2.2 with
  | some .trip =>
    (s.notifyAwake (.trip i e.quantity source (s.stepOf source) s.workingEpoch f.2)).fire e.action (.limit i) closing
  | some .release => s.notifyAwake (.release i e.quantity source (s.stepOf source) s.workingEpoch)
  | none => s

/-- The change a verdict brings to entry `i` (R70). -/
def State.changeOf (s : State) (i : Nat) (e : LimitEntry) (v : Verdict) : Option LimitChange :=
  let run := s.limits.getD i .normal
  (runAfter run.state run.count e.persistence v).2.2

/-! ### Evaluating a round (R70) and a word (R72) -/

/-- One entry of the walk over a closing round. -/
def evaluateEntry (r : RoundRecord) (acc : State × List VerdictItem) (x : LimitEntry × Nat) :
    State × List VerdictItem :=
  if x.1.quantity != .current && appliesToRound x.1 r then
    let f := judgeRound x.1 r
    let change := acc.1.changeOf x.2 x.1 f.1
    let item : List VerdictItem :=
      if f.1 == .violate || change.isSome then [VerdictItem.mk x.2 f.1 change] else []
    (acc.1.applyVerdict x.2 x.1 f (.round r.number) (some r.number), acc.2 ++ item)
  else acc

/-- The enabled entries of the working table with their indexes, in index order. -/
def State.limitEntries (s : State) : List (LimitEntry × Nat) :=
  match s.image with
  | some i => (i.limit.zipIdx.map fun x => (readLimit x.1).map fun e => (e, x.2)).reduceOption
  | none => []

/-- R70: the Limit Evaluator classifies round `n` and writes its verdict list. -/
def State.evaluateRound (s : State) (n : RoundNumber) : State :=
  match s.record n with
  | some r =>
    let done := s.limitEntries.foldl (evaluateEntry r) (s, [])
    done.1.mapRecord n fun r => { r with verdicts := done.2 }
  | none => s

/-- R72: the Limit Evaluator judges a word. -/
def State.evaluateWord (s : State) (value : BitVec 24) (sequence : Byte) (arrival : Instant) : State :=
  s.limitEntries.foldl
    (fun s x =>
      if appliesToWord x.1 then s.applyVerdict x.2 x.1 (judgeWord x.1 value) (.word sequence arrival) none else s) s

/-- Some entry of the working table judges words. -/
def State.judgesWords (s : State) : Bool := s.limitEntries.any fun x => appliesToWord x.1

end Sys2Proof.Machine
end

