-- ==== Sys2Proof/Machine/Current.lean ====
section
/-! DEFINITION. The Current Stream Input (chapter 3): taking a word, the loss of the stream, and the current entry of a
round. -/

namespace Sys2Proof.Machine

/-! ### The fields of a current word (11.5) -/

def wordValue (w : BitVec 32) : BitVec 24 := (w >>> 8).truncate 24
def wordSequence (w : BitVec 32) : Byte := w.truncate 8

/-- 11.5: the word of the bits clocked in, the most significant first. -/
def wordOf (bits : List Bool) : BitVec 32 := bits.foldl (fun w b => w <<< 1 ||| if b then 1#32 else 0#32) 0#32

/-! ### Taking a word (R51 to R56) -/

/-- R51: the operating states in which a complete word is taken. -/
def OpState.takesWords : OpState → Bool
  | .run | .unconfigured => true
  | .entering | .asleep | .patrol | .waking => false

/-- R51: the strobe changes; the bits of a partial word are discarded, and a new word begins with none. -/
def State.strobeChanges (s : State) (active : Bool) : State :=
  if s.pins.csfs = active then s
  else { s with pins := { s.pins with csfs := active }, stream := { s.stream with bits := [] } }

/-- R51: a bit is clocked in on CSDI. While the strobe is active it joins the word, which is complete with its 32nd bit and then
joins the queue of commands (entry 39); further bits are ignored. -/
def State.receiveBit (s : State) (bit : Bool) : State :=
  s.unlessHeld fun s =>
    if s.pins.csfs && s.stream.bits.length < 32 then
      let bits := s.stream.bits ++ [bit]
      { s with
        stream := { s.stream with bits := bits }
        pending := s.pending ++ if bits.length = 32 then [.currentWord (wordOf bits)] else [] }
    else s

/-- R52, R53: the entry joins the newest 256, the stream is LIVE and the loss timer restarts. -/
def CurrentStream.take (c : CurrentStream) (value : BitVec 24) (sequence : Byte) (now : Instant) : CurrentStream :=
  let entry : CurrentSample := ⟨value, sequence, now, c.gapBefore sequence, c.startsSpan⟩
  { c with
    history := (c.history ++ [entry]).drop (c.history.length + 1 - 256), state := .live, lossExpiry := some (now + 1000#32) }

/-- R56: the word is handed to the Limit Evaluator and to the Connection Sequencer; either acts first (entry 3). -/
def State.handWord (s : State) (value : BitVec 24) (sequence : Byte) (gap : Bool) : State :=
  s.anyOrder
    ((if s.judgesWords then [fun t : State => t.evaluateWord value sequence s.time] else []) ++
      (if s.sequencer.state = .precharging then [fun s : State => s.prechargeWord value gap] else []))

/-- R51 to R56: a complete word. -/
def State.takeWord (s : State) (w : BitVec 32) : State :=
  if s.sleep.op.takesWords then
    let value := wordValue w
    let sequence := wordSequence w
    let gap := s.stream.gapBefore sequence
    let lost := s.stream.state == .lost
    let s := { s with stream := s.stream.take value sequence s.time }
    let s := if lost then s.notify (.currentBack value sequence s.time) else s
    s.handWord value sequence gap
  else s

/-- R53, R54: the loss timer expires in LIVE. R53 lets CURRENT_LOST carry the value and the arrival instant of the newest entry; that
it carries the whole latest current, and with it the stream state, which is LOST then, is read from R59 (DEDUCED, entry 58). -/
def State.loseStream (s : State) : State :=
  let s := { s with stream := { s.stream with state := .lost, lossExpiry := none } }
  let s := s.notify (.currentLost s.currentReport)
  if s.allOpen then s
  else
    match s.shared with
    | some p => s.fire p.currentLossAction .current none
    | none => s

/-- R55: the stream at sleep entry. -/
def CurrentStream.absented (c : CurrentStream) : CurrentStream := { c with state := .absent, lossExpiry := none }

/-! ### The current entry of a round (R57, R58) -/

/-- From the newest entry back to the newest one that starts a span, newest first. -/
def spanBack : List CurrentSample → List CurrentSample
  | [] => []
  | x :: rest => if x.spanStart then [x] else x :: spanBack rest

/-- The current span, oldest first (3.2). -/
def CurrentStream.span (c : CurrentStream) : List CurrentSample :=
  match c.state with
  | .absent => []
  | .live | .lost => (spanBack c.history.reverse).reverse

/-- R58: of the candidates the nearest to the part's sample instant, the earlier of two equally near. -/
def nearestCurrent (target : Instant) (delay : Nat) : List CurrentSample → Option CurrentEntry
  | [] => none
  | x :: rest =>
    let skew := instantDiff (x.arrival - micros delay) target
    let best := nearestCurrent target delay rest
    if -250 ≤ skew ∧ skew ≤ 250 then
      match best with
      | some e => if e.skew.natAbs < skew.natAbs then some e else some ⟨x.value, skew⟩
      | none => some ⟨x.value, skew⟩
    else best

/-- R57: the converter delay, 0 while UNCONFIGURED. -/
def State.converterDelay (s : State) : Nat :=
  match s.shared with
  | some p => p.converterDelay
  | none => 0

/-- H in µs (R15). -/
def State.target (s : State) : Nat :=
  match s.image with
  | some i => (i.timing .A).target
  | none => 0

/-- R58: the current entry of a SENT part; any other part has none. -/
def State.partCurrent (s : State) (p : ChainPart) : Option CurrentEntry :=
  match p.state, p.actual with
  | .sent, some actual => nearestCurrent (actual + micros s.target) s.converterDelay s.stream.span
  | _, _ => none

/-- R58: stage 1 of the close of round `n`. -/
def State.writeCurrents (s : State) (n : RoundNumber) : State :=
  s.mapRecord n fun r => { r with parts := r.parts.map fun p => { p with current := s.partCurrent p } }

end Sys2Proof.Machine
end

