-- ==== Sys2Proof/Machine/Nodes.lean ====
section
/-! DEFINITION. The Node Table (2.2) and the delay survey (2.8) of a Chain Port, and the orders that join its internal
queue. -/

namespace Sys2Proof.Machine

/-! ### The Node Table -/

def State.mapPort (s : State) (c : Chain) (f : ChainPort → ChainPort) : State := s.setPort c (f (s.port c))

/-- The Node Table entry of a position. -/
def State.node (s : State) (c : Chain) (position : Nat) : Option NodeEntry :=
  (s.port c).table.find? fun e => e.position == position

def State.mapNode (s : State) (c : Chain) (position : Nat) (f : NodeEntry → NodeEntry) : State :=
  s.mapPort c fun p => { p with table := p.table.map fun e => if e.position == position then f e else e }

/-- A state change that leaves a LOST node LOST (R28, R49). -/
def NodeEntry.become (e : NodeEntry) (state : NodeState) : NodeEntry :=
  if e.state = .lost then e else { e with state := state }

/-- R26, R30: the entry of a position newly planned. -/
def NodeEntry.fresh (p : Planned) : NodeEntry :=
  { position := p.position, cells := p.cells, temps := p.temps, state := .unsurveyed, saved := none, latency := none,
    holdoff := none, missCount := 0, localFault := false }

/-- R30: a position that the old table lists with the same counts keeps its entry. -/
def rebuildTable (old : List NodeEntry) (plan : List Planned) : List NodeEntry :=
  plan.map fun p =>
    (old.find? fun e => e.position == p.position && e.cells == p.cells && e.temps == p.temps).getD (.fresh p)

/-- R30: the new plan differs from the table's in a position, a cell count or a temperature count. -/
def planChanged (old : List NodeEntry) (plan : List Planned) : Bool :=
  old.map (fun e => Planned.mk e.position e.cells e.temps) != plan

/-! ### The end of a round (R27) -/

/-- R27: the state of a node that has delivered. -/
def NodeEntry.deliver (e : NodeEntry) : NodeEntry :=
  { e with missCount := 0, state := if e.holdoff.isSome then .active else .unsurveyed }

/-- R27: a node that has not delivered. -/
def NodeEntry.miss (e : NodeEntry) (limit : Nat) : NodeEntry :=
  let count := min (e.missCount + 1) 15
  { e with
    missCount := count
    state := if e.state = .lost then .lost else if limit ≤ count then .lost else .missing }

/-- R27: one node entry of a SENT part of round `n` is applied to the Node Table. -/
def State.countReading (s : State) (c : Chain) (cause : Option EndCause) (x : Reading) (n : RoundNumber) : State :=
  match s.node c x.position with
  | none => s
  | some e =>
    match x.status, cause with
    | .missing, some .aborted => s
    | .missing, _ =>
      let after := e.miss (match s.image with | some i => i.nodeLossLimit c | none => 15)
      let s := s.mapNode c x.position fun _ => after
      if e.state ≠ .lost ∧ after.state = .lost then
        (s.notify (.nodeLost c x.position after.missCount)).fire
          (match s.image with | some i => i.nodeLossAction c | none => none) (.node c x.position) (some n)
      else s
    | _, _ =>
      let s := s.mapNode c x.position NodeEntry.deliver
      if e.state = .lost then s.notify (.nodeBack c x.position) else s

/-- R27: a part of the closing round `n`; a part that is not SENT changes no entry. -/
def State.countPart (s : State) (p : ChainPart) (n : RoundNumber) : State :=
  if p.state = .sent then p.readings.foldl (fun s x => s.countReading p.chain p.endCause x n) s else s

/-- R21, stage 2: the Node Tables take the parts of round `n`, chain A first. -/
def State.countRound (s : State) (n : RoundNumber) : State :=
  match s.record n with
  | some r => r.parts.foldl (fun s p => s.countPart p n) s
  | none => s

/-! ### Rest and rouse (R29) -/

def NodeEntry.rest (e : NodeEntry) : NodeEntry :=
  if e.state = .resting then e else { e with state := .resting, saved := some e.state }

def NodeEntry.rouse (e : NodeEntry) : NodeEntry :=
  if e.state = .resting then { e with state := e.saved.getD .unsurveyed, saved := none } else e

/-- R29: the end of a REST; the Node Table is RESTING, one without an entry too (R140, R148). -/
def State.restTable (s : State) (c : Chain) : State :=
  s.mapPort c fun p => { p with table := p.table.map .rest, resting := true }

/-- R29: the end of a ROUSE. -/
def State.rouseTable (s : State) (c : Chain) : State :=
  s.mapPort c fun p => { p with table := p.table.map .rouse, resting := false }

/-- The Node Table of the chain is RESTING (R140, R148). -/
def State.resting (s : State) (c : Chain) : Bool := (s.port c).resting

/-! ### Queues (R31) -/

def State.joinInternal (s : State) (c : Chain) (o : Order) : State :=
  s.mapPort c fun p => { p with internal := p.internal ++ [o] }

def State.joinForward (s : State) (c : Chain) (o : Order) : State :=
  s.mapPort c fun p => { p with forward := p.forward ++ [o] }

def State.runs (s : State) (c : Chain) : Bool := (s.port c).run == .running

/-! ### The survey (R47 to R50) -/

/-- R50: the survey ends with an outcome; the lists become the last result and SURVEY_DONE is noticed. -/
def State.recordSurvey (s : State) (c : Chain) (o : SurveyOutcome) : State :=
  let p := s.port c
  let result : SurveyResult := ⟨p.aligned, p.notAligned, o⟩
  (s.setPort c { p with survey := .idle, lastSurvey := some result }).notify (.surveyDone c result)

/-- R48: a survey begins: the lists are cleared and the first ECHO joins, or it ends at once over an empty plan. -/
def State.startSurvey (s : State) (c : Chain) : State :=
  let s := s.mapPort c fun p => { p with aligned := [], notAligned := [] }
  match (s.port c).table with
  | e :: _ => (s.mapPort c fun p => { p with survey := .echoing e.position }).joinInternal c (.echo e.position)
  | [] => s.recordSurvey c .complete

/-- R48: what a request of the bridge and a pending survey find before a survey begins. -/
def State.surveyAllowed (s : State) (c : Chain) : Bool :=
  (s.port c).survey == .idle && s.sleep.op == .run && s.runs c

/-- R48: a pending survey begins, and the flag is cleared. -/
def State.pendingSurvey (s : State) (c : Chain) : State :=
  if (s.port c).surveyPending && s.surveyAllowed c then
    (s.mapPort c fun p => { p with surveyPending := false }).startSurvey c
  else s

/-- A survey begins; where it ends at once, a pending one follows (R50). -/
def State.beginSurvey (s : State) (c : Chain) : State := (s.startSurvey c).pendingSurvey c

/-- R48: a request from the bridge itself. -/
def State.requestSurvey (s : State) (c : Chain) : State :=
  if s.surveyAllowed c then s.beginSurvey c else s.mapPort c fun p => { p with surveyPending := true }

/-- R50: the survey in flight ends, and a pending one begins. -/
def State.endSurvey (s : State) (c : Chain) (o : SurveyOutcome) : State := (s.recordSurvey c o).pendingSurvey c

/-- The survey of a chain that becomes STOPPED (R50). -/
def State.abortSurvey (s : State) (c : Chain) : State :=
  if (s.port c).survey = .idle then s else s.endSurvey c .aborted

/-- R49: the step of position `p` ends with `p` on one of the lists; the survey goes on to the next planned position,
or ends. A chain that is being drained takes no further step (R44). -/
def State.surveyNext (s : State) (c : Chain) (position : Nat) (aligned : Bool) : State :=
  let s := s.mapPort c fun p =>
    if aligned then { p with aligned := p.aligned ++ [position] }
    else { p with notAligned := p.notAligned ++ [position] }
  if s.runs c then
    match (s.port c).table.find? fun e => decide (position < e.position) with
    | some e => (s.mapPort c fun p => { p with survey := .echoing e.position }).joinInternal c (.echo e.position)
    | none => s.endSurvey c .complete
  else s

/-- R49: the round trip in 0.1 µs, from the end instant of the ECHO to the start instant of its ANSWER (R3). It is below 0 where the
ANSWER starts before the ECHO has ended (entry 11). -/
def roundTrip (sent : Instant) (start : Stamp) : Int := instantDiff start.instant sent * 10 + start.tenth.val

/-- R49: the latency in 0.1 µs from a round trip in 0.1 µs. -/
def latencyOf (trip : Int) : Nat := if trip < 40 then 0 else ((trip - 40) / 2).toNat

/-- R49: the ECHO to a position is answered. -/
def State.echoAnswered (s : State) (c : Chain) (position : Nat) (trip : Int) : State :=
  let latency := latencyOf trip
  let holdoff : Int := (s.target * 10 : Nat) - (latency : Int)
  let s := s.mapNode c position fun e => { e with latency := some (BitVec.ofNat 16 latency) }
  if 0 ≤ holdoff then
    if s.runs c then
      (s.mapPort c fun p => { p with survey := .writing position }).joinInternal c
        (.setHoldoff position (BitVec.ofInt 16 holdoff))
    else s
  else
    (s.mapNode c position fun e => { e with holdoff := none }.become .unsurveyed).surveyNext c position false

/-- R49: the ECHO to a position is not answered in time. -/
def State.echoTimedOut (s : State) (c : Chain) (position : Nat) : State :=
  (s.mapNode c position fun e => e.become .missing).surveyNext c position false

/-- R49: the SET_HOLDOFF to a position is answered. -/
def State.holdoffAnswered (s : State) (c : Chain) (position : Nat) (value : BitVec 16) : State :=
  (s.mapNode c position fun e => { e with holdoff := some value }.become .active).surveyNext c position true

/-- R49: the SET_HOLDOFF to a position is not answered in time. -/
def State.holdoffTimedOut (s : State) (c : Chain) (position : Nat) : State :=
  (s.mapNode c position fun e => { e with holdoff := none }.become .missing).surveyNext c position false

/-! ### Flags carried by sample sets (R28, R50) -/

/-- R50: a node that has reset moves from the aligned list of a survey in flight to the tail of the other (entry 55). -/
def ChainPort.unalign (p : ChainPort) (position : Nat) : ChainPort :=
  if p.survey ≠ .idle ∧ position ∈ p.aligned then
    { p with aligned := p.aligned.filter (fun q => q != position), notAligned := p.notAligned ++ [position] }
  else p

/-- R28: the two node flags of a sample set of round `n`. -/
def State.takeNodeFlags (s : State) (c : Chain) (position : Nat) (nodeReset localFault : Bool) (n : RoundNumber) :
    State :=
  let s := s.mapNode c position fun e => { e with localFault := localFault }
  if nodeReset then
    let s := s.mapNode c position fun e => { e with holdoff := none }.become .unsurveyed
    let s := (s.mapPort c fun p => p.unalign position).notify (.nodeUnaligned c position n)
    match s.image with
    | some i => if (i.timing c).autoSurvey then s.requestSurvey c else s
    | none => s
  else s

end Sys2Proof.Machine
end

