-- ==== Sys2Proof/Machine/Rounds.lean ====
section
/-! DEFINITION. Rounds (1.3 to 1.6, 5.1): creation, the trigger claim, placement in the Round Ring, collection, the end of
a chain part, and the four stages of a close. -/

namespace Sys2Proof.Machine

/-! ### Chain parts -/

def RoundRecord.part (r : RoundRecord) (c : Chain) : Option ChainPart := r.parts.find? fun p => p.chain == c

def RoundRecord.mapPart (r : RoundRecord) (c : Chain) (f : ChainPart → ChainPart) : RoundRecord :=
  { r with parts := r.parts.map fun p => if p.chain == c then f p else p }

/-- A SENT part that has not ended. -/
def ChainPart.collecting (p : ChainPart) : Bool := p.state == .sent && p.endCause.isNone

/-- R21: no part is WAITING and every SENT part has ended. -/
def RoundRecord.settled (r : RoundRecord) : Bool :=
  r.parts.all fun p => p.state != .waiting && !p.collecting

def RoundRecord.waitsFor (r : RoundRecord) (c : Chain) : Bool :=
  match r.part c with
  | some p => p.state == .waiting
  | none => false

/-- The collecting round of a chain (R14). -/
def State.collectingRound (s : State) (c : Chain) : Option RoundRecord :=
  s.ring.find? fun r => !r.closed &&
    match r.part c with
    | some p => p.collecting
    | none => false

/-- The placed round whose claim waits for a chain. -/
def State.waitingRound (s : State) (c : Chain) : Option RoundRecord := s.ring.find? fun r => !r.closed && r.waitsFor c

/-- R31: a trigger claim waits for the chain. -/
def State.claimWaits (s : State) (c : Chain) : Bool :=
  (match s.pendingRound with | some r => r.waitsFor c | none => false) || (s.waitingRound c).isSome

/-- No claim waits and no round record is COLLECTING (R8). -/
def State.roundsQuiet (s : State) : Bool := s.pendingRound.isNone && s.ring.all RoundRecord.closed

/-! ### Placement (R82, R83) -/

/-- R83: the record with a number is taken out, and each capture that holds it marks it DROPPED. -/
def State.takeOut (s : State) (n : RoundNumber) : State :=
  { s with
    ring := s.ring.filter fun r => r.number != n
    captures := { s.captures with list := s.captures.list.map fun c => if c.holds n then c.drop n else c } }

/-- R82: the oldest CLOSED record that no capture holds leaves the ring. -/
def dropOldestFree : List RoundRecord → List RoundRecord
  | [] => []
  | r :: rest => if r.closed && r.holders == 0 then rest else r :: dropOldestFree rest

/-- R82, R83: the round is given a place at the tail of the ring. -/
def State.placeRound (s : State) (r : RoundRecord) : State :=
  let s := if (s.record r.number).isSome then s.takeOut r.number else s
  { s with ring := (if 32 ≤ s.ring.length then dropOldestFree s.ring else s.ring) ++ [r] }

/-! ### The close (R21) -/

/-- R87: the ROUND REPORT of round `n`, a copy of the record as it stands. -/
def State.reportRound (s : State) (n : RoundNumber) : State :=
  match s.record n with
  | some r => s.offer (.roundReport r)
  | none => s

/-- Some capture takes round `n` as a post round (R92). -/
def State.postTakers (s : State) (n : RoundNumber) : Bool := s.captures.list.any fun c => c.takes n

def State.reports (s : State) (n : RoundNumber) : Bool :=
  match s.record n with
  | some r => r.report
  | none => false

/-- R21, stage 4: the record is CLOSED; no rule orders the taking of post rounds (R92) and the report (R87), entry 3. -/
def State.finishRound (s : State) (n : RoundNumber) : State :=
  let s := s.mapRecord n fun r => { r with closed := true }
  s.anyOrder
    ((if s.postTakers n then [fun s : State => s.takePostRound n] else []) ++
      (if s.reports n then [fun s : State => s.reportRound n] else []))

/-- R21: the four stages of the close of round `n`. -/
def State.closeStages (s : State) (n : RoundNumber) : State :=
  (((s.writeCurrents n).countRound n).evaluateRound n).finishRound n

/-! ### Creation (R10, R12 to R14) -/

/-- R14: the node entries of a part at placement. -/
def State.blankReadings (s : State) (c : Chain) : List Reading :=
  (s.port c).table.map fun e => ⟨e.position, .missing, [], [], false, false⟩

/-- R10: the part of a chain at the planned instant. -/
def State.newPart (s : State) (planned : Instant) (c : Chain) : ChainPart :=
  let blank : ChainPart := ⟨c, .waiting, none, none, none, s.blankReadings c, none⟩
  if !s.runs c then { blank with state := .stopped }
  else if (s.port c).transaction.isNone then { blank with state := .sent, actual := some planned, lateness := some 0#32 }
  else blank

/-- R11: the TRIGGER leaves; its transaction lasts until the part ends. -/
def State.sendTrigger (s : State) (c : Chain) : State := s.mapPort c fun p => { p with transaction := some .trigger }

/-- R13: where a new round goes: into the ring when a part is SENT, into the ring and closed when every part is STOPPED,
and pending otherwise. -/
def State.settleNew (s : State) (r : RoundRecord) : State :=
  if r.parts.any fun p => p.state == .sent then s.placeRound r
  else if r.parts.any fun p => p.state == .waiting then { s with pendingRound := some r }
  else (s.placeRound r).closeStages r.number

/-- A round was created whose parts are all STOPPED, so that it closed at its creation. -/
def RoundRecord.neverSent (r : RoundRecord) : Bool := r.parts.all fun p => p.state == .stopped

/-- R10, R12, R14: the record of a round created now. -/
def State.newRound (s : State) (step : RoundStep) (kind : SampleKind) (report : Bool) (chains : List Chain)
    (planned : Instant) : RoundRecord :=
  { number := s.roundCounter + 1#16, step := step, kind := kind, report := report, epoch := s.workingEpoch,
    planned := planned, parts := chains.map (s.newPart planned), verdicts := [], closed := false, holders := 0,
    reported := false }

/-- R10, R12, R13: a round comes to exist, and the TRIGGER leaves on each of its chains that is free. -/
def State.createRound (s : State) (r : RoundRecord) : State :=
  let s := { s with roundCounter := r.number }
  let s := r.parts.foldl (fun s p => if p.state = .sent then s.sendTrigger p.chain else s) s
  s.settleNew r

/-! ### A waiting claim (R11) -/

/-- The part of a chain whose TRIGGER leaves now. -/
def ChainPart.send (p : ChainPart) (now planned : Instant) : ChainPart :=
  { p with state := .sent, actual := some now, lateness := some (now - planned) }

/-- R11: the chain frees and the waiting claim is granted: the part becomes SENT, and a pending round is placed. -/
def State.grantClaim (s : State) (c : Chain) : State :=
  let send := fun r : RoundRecord => r.mapPart c fun p => p.send s.time r.planned
  match s.pendingRound with
  | some r =>
    if r.waitsFor c then ({ s with pendingRound := none }.placeRound (send r)).sendTrigger c
    else s
  | none =>
    match s.waitingRound c with
    | some r => (s.mapRecord r.number send).sendTrigger c
    | none => s

/-- A waiting claim is withdrawn (R11): the part takes the state; whether this settles the round is judged after. -/
def State.withdrawPart (s : State) (c : Chain) (state : PartState) : State :=
  let mark := fun r : RoundRecord => r.mapPart c fun p => { p with state := state }
  match s.pendingRound with
  | some r =>
    if r.waitsFor c then
      let r := mark r
      if r.settled then { s with pendingRound := none }.placeRound r else { s with pendingRound := some r }
    else s
  | none =>
    match s.waitingRound c with
    | some r => s.mapRecord r.number mark
    | none => s

/-- The number of the round whose claim waits for a chain. -/
def State.claimNumber (s : State) (c : Chain) : Option RoundNumber :=
  match s.pendingRound with
  | some r => if r.waitsFor c then some r.number else none
  | none => (s.waitingRound c).map RoundRecord.number

/-- The record `n` is COLLECTING and has settled, so that it closes (R21). -/
def State.closesNow (s : State) (n : RoundNumber) : Bool :=
  match s.record n with
  | some r => !r.closed && r.settled
  | none => false

/-! ### Collecting (R17 to R20) -/

/-- R20: the SENT part of a chain ends; the transaction of its trigger ends and the chain is free. -/
def State.endPart (s : State) (c : Chain) (n : RoundNumber) (cause : EndCause) : State :=
  (s.mapRecord n fun r => r.mapPart c fun p => { p with endCause := some cause }).mapPort c
    fun p => { p with transaction := none }

/-- No node entry of the part is still MISSING (R20). -/
def ChainPart.full (p : ChainPart) : Bool := p.readings.all fun x => x.status != .missing

def State.setReading (s : State) (c : Chain) (n : RoundNumber) (x : Reading) : State :=
  s.mapRecord n fun r => r.mapPart c fun p =>
    { p with readings := p.readings.map fun y => if y.position == x.position then x else y }

/-- The part of chain `c` in round `n`. -/
def State.partOf (s : State) (c : Chain) (n : RoundNumber) : Option ChainPart := (s.record n).bind fun r => r.part c

/-- R20: the part ends COMPLETE once no entry is MISSING. -/
def State.endIfFull (s : State) (c : Chain) (n : RoundNumber) : State :=
  match s.partOf c n with
  | some p => if p.full then s.endPart c n .complete else s
  | none => s

/-- The MISSING node entry of an address in a part. -/
def ChainPart.missing (p : ChainPart) (address : Byte) : Option Reading :=
  p.readings.find? fun x => x.position == address.toNat && x.status == .missing

/-- R18: the entry becomes CHECK_FAILED with empty lists and clear flags. -/
def State.failReading (s : State) (c : Chain) (n : RoundNumber) (x : Reading) : State :=
  s.setReading c n ⟨x.position, .checkFailed, [], [], false, false⟩

/-- R19: the status of a set that passes every test. -/
def fillStatus (nodeReset : Bool) (holdoff : Option (BitVec 16)) : ReadingStatus :=
  if nodeReset || holdoff.isNone then .unaligned else .ok

/-- R17, step 5: both lists are of the planned counts. -/
def listsFit (e : NodeEntry) (cells temps : List (BitVec 16)) : Bool :=
  cells.length == e.cells && temps.length == e.temps

/-- R17 steps 5 and 6, R19, R28: a set that passed steps 1 to 4 of R17. -/
def State.fillReading (s : State) (c : Chain) (n : RoundNumber) (x : Reading) (set : SampleSet) : State :=
  match set.lists, s.node c x.position with
  | some (cells, temps), some e =>
    if listsFit e cells temps then
      (s.setReading c n ⟨x.position, fillStatus set.nodeReset e.holdoff, cells, temps, set.nodeReset, set.localFault⟩)
        |>.takeNodeFlags c x.position set.nodeReset set.localFault n
    else s.failReading c n x
  | _, _ => s.failReading c n x

end Sys2Proof.Machine
end

