-- ==== Sys2Proof/Machine/Arbiter.lean ====
section
/-! DEFINITION. The chain arbiter (2.3): the next planned instant of a chain (R9), reserved durations and admission (R33),
the grants (R34, R36). -/

namespace Sys2Proof.Machine

/-! ### The next planned instant (R9) -/

/-- A width of n units of 100 µs in µs (R4). -/
def ScheduleStep.duration (x : ScheduleStep) : Nat := x.width * 100

/-- Steps with their starts, the first starting at `start` (R4). -/
def stepStarts (start : Instant) : List ScheduleStep → List (ScheduleStep × Instant)
  | [] => []
  | x :: rest => (x, start) :: stepStarts (start + micros (ScheduleStep.duration x)) rest

def totalDuration (steps : List ScheduleStep) : Nat := (steps.map ScheduleStep.duration).sum

/-- The working step list (R4), empty while UNCONFIGURED. -/
def State.steps (s : State) : List ScheduleStep :=
  match s.image with
  | some i => i.steps
  | none => []

/-- The start of the next cycle (R4, R9). -/
def State.nextBoundary (s : State) : Instant := s.cursor.start + micros (totalDuration (s.steps.drop s.cursor.step))

/-- The steps after the present one, through the rest of this cycle and the next cycle, with their starts (R9). -/
def State.upcoming (s : State) : List (ScheduleStep × Instant) :=
  (stepStarts s.cursor.start (s.steps.drop s.cursor.step)).drop 1 ++ stepStarts s.nextBoundary s.steps

/-- The start of the first upcoming TRIGGER step that names the chain. -/
def State.upcomingTrigger (s : State) (c : Chain) : Option Instant :=
  (s.upcoming.find? fun x => x.1.trigger && x.1.chains.contains c).map Prod.snd

/-- The earlier of two instants (R1). -/
def earlier (x y : Instant) : Instant := if later x y then y else x

/-- R9: the next planned instant of a chain. -/
def State.nextPlanned (s : State) (c : Chain) : Option Instant :=
  if s.cursor.state ≠ .running ∨ ¬ s.runs c then none
  else if s.update.state = .applyPending then
    match s.upcomingTrigger c with
    | some p => some (earlier p s.nextBoundary)
    | none => some s.nextBoundary
  else s.upcomingTrigger c

/-! ### Admission (R33) -/

/-- The answer timeout of an order to a position (R33); while UNCONFIGURED it is free (entry 6). -/
def State.answerTimeout (s : State) (c : Chain) (position : Nat) : Instant :=
  match s.image with
  | some i => micros ((i.timing c).answerBase + position * (i.timing c).hop)
  | none => (Config.unconfiguredTimeout position).zeroExtend 32

/-- R33: the reserved duration of an order. -/
def State.reserved (s : State) (c : Chain) (o : Order) : Instant :=
  micros (Order.frameTime o) + (if o.position = 0 then micros 100 else s.answerTimeout c o.position)

def State.guard (s : State) (c : Chain) : Nat :=
  match s.image with
  | some i => (i.timing c).guard
  | none => 0

/-- R33: the order at the head of a queue fits now. -/
def State.fits (s : State) (c : Chain) (o : Order) : Bool :=
  match s.nextPlanned c with
  | none => true
  | some p => !later (s.time + s.reserved c o) (p - micros (s.guard c))

/-! ### Grants (R34, R36) -/

/-- R24, R36, R39: the transaction of a granted order, with the tag it takes. -/
def State.grantOrder (s : State) (c : Chain) (o : Order) : State :=
  let ended := s.time + micros (Order.frameTime o)
  if o.position = 0 then
    s.mapPort c fun p => { p with transaction := some (.broadcast o (ended + micros 100)) }
  else
    s.mapPort c fun p =>
      { p with
        transaction := some (.order o p.tagCounter ended (ended + s.answerTimeout c o.position))
        tagCounter := p.tagCounter + 1#4
        kept := p.kept.filter fun k => k.tag != p.tagCounter }

/-- R24: the tag the frame of a transaction carries: the one taken at the grant, and 0 for a TRIGGER and a broadcast. -/
def Transaction.tag : Transaction → BitVec 4
  | .trigger => 0#4
  | .order _ tag _ _ => tag
  | .broadcast _ _ => 0#4

/-- R16, R24, R36, R183: the bytes of the downward frame of the transaction in flight on a chain. -/
def State.downwardFrame (s : State) (c : Chain) : Option (List Byte) :=
  match (s.port c).transaction with
  | some .trigger => (s.collectingRound c).map fun r => triggerFrame Transaction.trigger.tag r.number r.kind
  | some (.order o tag ended timeout) => some (orderFrame o (Transaction.order o tag ended timeout).tag)
  | some (.broadcast o settle) => some (orderFrame o (Transaction.broadcast o settle).tag)
  | none => none

/-- 11.1: the bits of the downward frame. -/
def State.downwardLine (s : State) (c : Chain) : Option (List Bool) := (s.downwardFrame c).map fun f => f.flatMap lineBits

def State.grantInternal (s : State) (c : Chain) (o : Order) : State :=
  (s.mapPort c fun p => { p with internal := p.internal.drop 1, marker := .internal }).grantOrder c o

def State.grantForward (s : State) (c : Chain) (o : Order) : State :=
  (s.mapPort c fun p => { p with forward := p.forward.drop 1, marker := .forward }).grantOrder c o

/-- The head of a queue when it fits. -/
def State.fittingHead (s : State) (c : Chain) (q : List Order) : Option Order :=
  match q with
  | o :: _ => if s.fits c o then some o else none
  | [] => none

/-- R34: the decision on a chain that is free and RUNNING. -/
def State.decide (s : State) (c : Chain) : State :=
  let p := s.port c
  if s.claimWaits c then s.grantClaim c
  else
    match s.fittingHead c p.internal, s.fittingHead c p.forward with
    | some i, some f => if p.marker = .internal then s.grantForward c f else s.grantInternal c i
    | some i, none => s.grantInternal c i
    | none, some f => s.grantForward c f
    | none, none => s

/-- R34: while a transaction is in flight, or the chain is DRAINING or STOPPED, nothing is granted. -/
def State.arbitrate (s : State) (c : Chain) : State :=
  if s.runs c && (s.port c).transaction.isNone then s.decide c else s

def State.arbitrateBoth (s : State) : State := (s.arbitrate .A).arbitrate .B

end Sys2Proof.Machine
end

