-- ==== Sys2Proof/Machine/Scheduler.lean ====
section
/-! DEFINITION. The Cycle Scheduler (1.2): steps, the cursor, the cycle boundary and the apply (9.6). -/

namespace Sys2Proof.Machine

/-- The step the cursor stands at. -/
def State.currentStep (s : State) : Option ScheduleStep := s.steps[s.cursor.step]?

/-- R6, R10: the step at the cursor begins; a TRIGGER step creates its round, a QUIET step does nothing. -/
def State.beginStep (s : State) : State :=
  match s.currentStep with
  | some x =>
    if x.trigger then s.createRound (s.newRound (.step s.cursor.step) x.kind x.report x.chains s.cursor.start) else s
  | none => s

/-- R5: the cursor starts. -/
def State.startCursor (s : State) : State := { s with cursor := ⟨.running, 0, s.time, 0#32⟩ }.beginStep

/-- R8: the stop request. -/
def State.stopCursor (s : State) : State :=
  match s.cursor.state with
  | .running | .starting => { s with cursor := { s.cursor with state := .stopping } }
  | .stopping | .stopped => s

/-- The instant at which the present step expires (R6). -/
def State.stepEnd (s : State) : Instant :=
  s.cursor.start + micros (match s.currentStep with | some x => ScheduleStep.duration x | none => 0)

/-! ### The apply (R167) -/

/-- The transitional states (R117). -/
def SeqState.transitional : SeqState → Bool
  | .negClosing | .precharging | .posClosing | .preReleasing | .disconnecting => true
  | .idle | .connected | .tripped | .failed => false

/-- R7: the conditions of an apply at a boundary. -/
def State.applyAllowed (s : State) : Bool :=
  s.ring.all RoundRecord.closed && !s.sequencer.state.transitional && (s.port .A).survey == .idle &&
    (s.port .B).survey == .idle

/-- The slot the last swap wrote: the VALID slot that carries the floor's epoch (R164). -/
def ImageStore.committed (x : ImageStore) : Slot :=
  if x.slotA.state = .valid ∧ x.slotA.epoch = x.floor then .A else .B

def ImageStore.slot (x : ImageStore) : Slot → SlotContents
  | .A => x.slotA
  | .B => x.slotB

def ImageStore.setSlot (x : ImageStore) (k : Slot) (c : SlotContents) : ImageStore :=
  match k with
  | .A => { x with slotA := c }
  | .B => { x with slotB := c }

/-- R152: every working copy is taken from a slot, and every limit entry is NORMAL (R68, R69). -/
def State.takeImage (s : State) (k : Slot) : State :=
  let c := s.store.slot k
  { s with working := some ⟨c.image, c.epoch, k⟩, limits := freshLimits }

/-- R30: one chain's Node Table is rebuilt, and a survey is requested when its plan changed. -/
def State.rebuildNodes (s : State) (c : Chain) : State :=
  match s.image with
  | some i =>
    let old := (s.port c).table
    let s := s.mapPort c fun p => { p with table := rebuildTable old (i.plan c) }
    if planChanged old (i.plan c) then s.requestSurvey c else s
  | none => s

/-- R134: an armed window's expiry becomes its reference plus the new Wmax, and a TIMEOUT is taken when that is not later
than the apply. -/
def State.refitWindow (s : State) : State :=
  match s.window.armed, s.window.reference with
  | true, some r =>
    let s := { s with window := { s.window with expiry := some (r + millis s.wmax) } }
    if expired s.window.expiry s.time then s.superviseFault .timeout else s
  | _, _ => s

/-- R48: the bridge has become RUN, and a pending survey begins on each chain, chain A first (entry 42). -/
def State.pendingSurveys (s : State) : State := (s.pendingSurvey .A).pendingSurvey .B

/-- R167, step 8: from UNCONFIGURED the operating state becomes RUN and the cursor starts (R5, R48). -/
def State.leaveUnconfigured (s : State) : State :=
  if s.sleep.op = .unconfigured then
    ({ s with sleep := { s.sleep with op := .run } }.startCursor).pendingSurveys
  else s

/-- The staging area is emptied and the state becomes CLOSED. -/
def UpdateEngine.emptied (u : UpdateEngine) : UpdateEngine :=
  { u with state := .closed, staging := none, stagedEpoch := none, idleExpiry := none, target := none }

/-- R167, step 9. -/
def State.commitDone (s : State) (previous : Epoch) (cycles : BitVec 32) : State :=
  { s with
    update := { s.update.emptied with lastOutcome := some (.commitDone s.workingEpoch, s.time) } }.notify
      (.commitDone s.workingEpoch previous cycles)

/-- R167: the apply; the Node Table of chain A is rebuilt first, and its survey begins first (entry 42). -/
def State.apply (s : State) : State :=
  let previous := s.workingEpoch
  let cycles := s.cursor.cycles
  let s := s.takeImage s.store.committed
  let s := (s.rebuildNodes .A).rebuildNodes .B
  (s.refitWindow.leaveUnconfigured).commitDone previous cycles

/-! ### The cycle boundary and the expiry of a step (R6, R7) -/

/-- R7: the cursor takes step 0 at the boundary instant with a cycle count. -/
def State.takeStepZero (s : State) (boundary : Instant) (cycles : BitVec 32) : State :=
  { s with cursor := ⟨.running, 0, boundary, cycles⟩ }.beginStep

/-- R7: the cycle boundary. -/
def State.cycleBoundary (s : State) (boundary : Instant) : State :=
  if s.update.state = .applyPending ∧ s.applyAllowed then s.apply.takeStepZero boundary 0#32
  else s.takeStepZero boundary (s.cursor.cycles + 1#32)

/-- R6: the cursor advances in RUNNING. -/
def State.advance (s : State) : State :=
  let ends := s.stepEnd
  if s.cursor.step + 1 < s.steps.length then
    { s with cursor := { s.cursor with step := s.cursor.step + 1, start := ends } }.beginStep
  else s.cycleBoundary ends

end Sys2Proof.Machine
end

