-- ==== Sys2Proof/Machine/Link.lean ====
section
/-! DEFINITION. The Host Link Port (chapter 10): the changes of the link state, the taking of an inbound frame and the
settling of the outbound frame of an exchange. -/

namespace Sys2Proof.Machine

/-! ### Link states (R171) -/

/-- R171: the change to OPEN. -/
def HostLink.openLink (l : HostLink) : HostLink :=
  { l with
    state := .opened, queue := [], owed := 0, lastDiscarded := false, lastCheckFailed := false,
    unsolicitedDiscard := false, resetExpiry := none, hwake := false }

/-- R139: an exchange that began before the shut continues under the closing phase. -/
def Exchange.closing (e : Exchange) : Exchange :=
  match e.kind with
  | .live => { e with kind := .closing }
  | .shut | .closing => e

/-- R139, R171: the change to SHUT. -/
def HostLink.shutLink (l : HostLink) : HostLink :=
  { l with state := .shut, queue := [], owed := 0, exchange := l.exchange.map Exchange.closing }

/-- R139: the shut of the host link at sleep entry; the shut expiry becomes absent. -/
def State.shutHostLink (s : State) : State :=
  { s with link := s.link.shutLink, sleep := { s.sleep with shutExpiry := none } }

/-! ### Inbound frames (R174, R175) -/

/-- R174: a frame that passes its check and is not taken; HWAKE is deasserted all the same. -/
def HostLink.discard (l : HostLink) : HostLink :=
  { l with lastDiscarded := true, lastCheckFailed := false, hwake := false }

/-- R175: a frame that is taken. -/
def HostLink.accept (l : HostLink) : HostLink :=
  { l with lastDiscarded := false, lastCheckFailed := false, hwake := false, owed := l.owed + 1 }

/-- R175: the link takes a frame that passes its check. -/
def HostLink.takes (l : HostLink) : Bool := l.state == .opened && l.owed < 4

/-- R171, R174 to R176: a good inbound frame reaches the link: it is taken and handed over, or discarded; a SHUT link
does not judge it. -/
def State.takeInbound (s : State) (f : State → State) : State :=
  if s.link.state = .shut then s
  else if s.link.takes then f { s with link := s.link.accept }
  else { s with link := s.link.discard }

/-- R174: a frame that fails its check. -/
def HostLink.checkFailed (l : HostLink) : HostLink := { l with lastDiscarded := false, lastCheckFailed := true }

/-- R173: an exchange without an inbound frame. -/
def HostLink.noInbound (l : HostLink) : HostLink := { l with lastDiscarded := false, lastCheckFailed := false }

/-! ### Settling (R178) -/

/-- R178: the head frame has been clocked out whole. -/
def HostLink.depart (l : HostLink) (q : Queued) : HostLink :=
  { l with queue := l.queue.drop 1, owed := if q.frame.isAnswer then l.owed - 1 else l.owed }

/-- R87: the reported flag of the record whose number and planned instant are those of the frame. -/
def State.markReported (s : State) (f : Outbound) : State :=
  match f with
  | .roundReport r =>
    { s with
      ring := s.ring.map fun x =>
        if x.number == r.number && x.planned == r.planned then { x with reported := true } else x }
  | .reply _ _ _ => s
  | .relay _ _ _ _ _ => s
  | .notice _ => s

/-- R178: the outbound frame of an exchange is settled. -/
def State.settleExchange (s : State) (e : Exchange) (clocked : Nat) : State :=
  match e.frame with
  | some q => if e.whole clocked then { s with link := s.link.depart q }.markReported q.frame else s
  | none => s

/-- The DONE of a SLEEP or of a BRIDGE_RESET has been clocked out whole in the exchange. -/
def Exchange.clockedFinal (e : Exchange) (clocked : Nat) : Bool :=
  e.whole clocked &&
    match e.frame with
    | some q => q.final
    | none => false

/-- R139, R181: the DONE of a SLEEP or of a BRIDGE_RESET has been clocked out whole in the exchange in progress. -/
def State.finalClocked (s : State) : Bool :=
  match s.link.exchange with
  | some e => e.kind == .live && e.clockedFinal e.clocked
  | none => false

/-! ### STATUS (R180) -/

/-- R81, R88: the RING section. -/
def State.ringSection (s : State) : StatusSection :=
  .ring s.ring.length (s.ring.head?.map RoundRecord.number) (s.ring.getLast?.map RoundRecord.number)
    ((s.ring.filter fun r => !r.closed).map RoundRecord.number)
    ((s.ring.filter fun r => 0 < r.holders).map RoundRecord.number)
    ((s.ring.find? fun r => r.closed && r.report && !r.reported).map RoundRecord.number)
    (s.captures.list.map fun c => ⟨c.id, c.cause, c.complete, c.anchor, c.countHeld⟩) s.captures.nextId
    s.captures.lastRefusal

def State.chainSection (s : State) (c : Chain) : StatusSection :=
  let p := s.port c
  .chain c p.run p.table p.survey p.surveyPending p.aligned p.notAligned p.lastSurvey p.tagCounter p.marker
    p.internal.length p.forward.length p.transaction.isSome

/-- R156, R153, R152: the UPDATE section. -/
def State.updateSection (s : State) : StatusSection :=
  let u := s.update
  let x := s.store
  .update u.state u.stagedEpoch u.idleExpiry u.target u.latch u.lastOutcome
    (x.slotA.state, x.slotA.epoch, x.slotA.check) (x.slotB.state, x.slotB.epoch, x.slotB.check) x.floor x.tamperFlag
    x.identity s.tampFilter.active s.svcFilter.active s.workingEpoch (s.working.map Working.slot)

/-- R180, R185: the section of a code. GENERAL counts the STATUS itself among the answers owed, since R175 has raised the count
at its event, and does not count its own REPLY in the queue (entry 52, DEDUCED). -/
def State.statusSection (s : State) (code : Byte) : Option StatusSection :=
  match code.toNat with
  | 1 => some (.general s.sleep.op s.sleep.phase s.cursor s.roundCounter s.link.state s.link.answers
      s.link.unsolicited s.link.owed s.link.unsolicitedDiscard)
  | 2 => some (s.chainSection .A)
  | 3 => some (s.chainSection .B)
  | 4 => some (.current s.stream.state s.stream.history.getLast? s.stream.history.length)
  | 5 => some (.limits s.limits)
  | 6 => some s.ringSection
  | 7 => some (.contactors s.channels ⟨s.role .K1, s.role .K2, s.role .K3, s.role .K4⟩ s.sequencer s.inhibit s.window)
  | 8 => some (.sleep s.sleep)
  | 9 => some s.updateSection
  | _ => none

/-- R180: STATUS; GENERAL clears the unsolicited-discard flag. -/
def State.requestStatus (s : State) (tag code : Byte) : State :=
  match s.statusSection code with
  | some x =>
    let s := if code = 1#8 then { s with link := { s.link with unsolicitedDiscard := false } } else s
    s.reply tag .done (.status s.time s.workingEpoch x)
  | none => s.reply tag .badArgument .none

/-- R181: BRIDGE_RESET. -/
def State.requestBridgeReset (s : State) (tag : Byte) : State :=
  if s.allOpen ∧ s.sequencer.state = .idle then
    let s := s.replyFinal tag
    { s with link := { s.link with state := .resetting, resetExpiry := some (s.time + millis 50) } }
  else s.reply tag .refusedState .none

end Sys2Proof.Machine
end

