-- ==== Sys2Proof/Machine/Sleep.lean ====
section
/-! DEFINITION. The Sleep Controller (chapter 8): entry, ASLEEP, patrols, wake inputs and the wake; and the close of a
round with what follows it in the same event. -/

namespace Sys2Proof.Machine

def State.setSleep (s : State) (f : SleepController → SleepController) : State := { s with sleep := f s.sleep }
def State.setSleepWork (s : State) (f : SleepWork → SleepWork) : State := { s with sleepWork := f s.sleepWork }

/-- The working Patrol Table (R136). -/
def State.patrol (s : State) : Option PatrolTable := s.image.map Image.patrolTable

/-! ### REST and ROUSE (R140, R143, R148) -/

def State.runningChains (s : State) : List Chain := Chain.all.filter s.runs

/-- The Sleep Controller puts one broadcast on each of the chains and awaits its end. -/
def State.broadcast (s : State) (o : Order) (cs : List Chain) : State :=
  cs.foldl (fun s c => (s.joinInternal c o).setSleepWork fun w => { w with awaiting := w.awaiting.set c true }) s

/-- No REST or ROUSE is awaited. -/
def State.broadcastsEnded (s : State) : Bool := !s.sleepWork.awaiting.a && !s.sleepWork.awaiting.b

/-! ### The oscillator and ASLEEP (R141) -/

/-- R141: the patrol timer started at an instant with an interval in s, which it counts by itself (R1). -/
def PatrolTimer.start (from_ : Instant) (interval : Nat) : PatrolTimer :=
  ⟨from_ + micros (interval * 1000000), interval * 1000000⟩

/-- R141: the patrol timer starts when the patrol chains are not NONE. -/
def State.startPatrolTimer (s : State) : Option PatrolTimer :=
  match s.patrol with
  | some p => if p.chains.isEmpty then none else some (.start s.time p.interval)
  | none => none

/-- R141: ASLEEP is reached; a latched cause begins WAKING in the same event. -/
def State.fallAsleep (s : State) : State :=
  let s := s.stopOscillator
  let s := s.setSleep fun x =>
    { x with op := .asleep, phase := none, sleepInstant := some s.time, patrolTimer := s.startPatrolTimer }
  if s.sleep.latched.isEmpty then s else s.wakeFromAsleep

/-- R141: the cursor is STOPPED, every REST has ended and the link is shut. -/
def State.asleepReached (s : State) : Bool :=
  s.sleep.op == .entering && s.sleep.phase == some .resting && s.cursor.state == .stopped && s.broadcastsEnded &&
    s.link.state == .shut

/-! ### The wake (R148, R149) -/

/-- R149: the fields of a WOKE with a set of causes. -/
def State.wakeRecord (s : State) (causes : WakeSet) : WakeRecord :=
  ⟨causes, s.sleep.sleepInstant, s.sleepWork.wakingSince, s.sleep.patrolCount, s.sleep.missCount⟩

/-- R149: the second WOKE when causes were latched since LINK_OPEN. -/
def State.secondWoke (s : State) : State :=
  if s.sleep.latched.isEmpty then s
  else
    let causes := s.sleep.latched
    (s.setSleep fun x =>
      { x with
        lastWake := x.lastWake.map fun r => { r with causes := r.causes.union causes }
        latched := .empty }).notify (.woke (s.wakeRecord causes))

/-- R148: the bridge becomes RUN. -/
def State.becomeRun (s : State) : State :=
  let s := s.setSleep fun x => { x with op := .run, phase := none, trackers := .three .inactive }
  let s := s.setSleepWork fun w => { w with senseOut := false, pulseStart := none, phaseExpiry := none }
  s.pendingSurveys.secondWoke

/-- R148, steps 1 to 3: the link opens, the first WOKE is placed and HWAKE is asserted. -/
def State.openForWake (s : State) : State :=
  let r := s.wakeRecord s.sleep.latched
  let s := { s with link := s.link.openLink }
  let s := (s.setSleep fun x => { x with lastWake := some r, latched := .empty }).notify (.woke r)
  { s with link := { s.link with hwake := true } }

/-- R22, R148: the cursor becomes RUNNING as the WAKE round closes, and the bridge becomes RUN. -/
def State.wakeRoundClosed (s : State) : State := s.startCursor.becomeRun

/-- R148: LINK_OPEN. While the cursor is STARTING its step index, step start instant and cycle count keep their last values
(entry 41). -/
def State.linkOpen (s : State) : State :=
  let s := s.openForWake.setSleepWork fun w => { w with phaseExpiry := none }
  match s.patrol with
  | some p =>
    if p.firstImmediate then
      let s := { s with cursor := { s.cursor with state := .starting } }.setSleep fun x =>
        { x with phase := some .wakeRound }
      let r := s.newRound .wake p.kind true s.runningChains s.time
      let s := s.createRound r
      if r.neverSent then s.wakeRoundClosed else s
    else s.startCursor.becomeRun
  | none => s.startCursor.becomeRun

/-- The end of ROUSING: the node wake time runs (R143, R148). -/
def State.enterNodeWake (s : State) : State :=
  (s.setSleep fun x => { x with phase := some .nodeWake }).setSleepWork fun w =>
    { w with phaseExpiry := some (s.time + millis (match s.patrol with | some p => p.nodeWake | none => 0)) }

/-- R148: ROUSING in WAKING; with no ROUSE to send, LINK_OPEN follows. -/
def State.wakeRousing (s : State) : State :=
  let cs := s.runningChains.filter s.resting
  let s := s.setSleep fun x => { x with phase := some .rousing }
  if cs.isEmpty then s.linkOpen else s.broadcast .rouse cs

/-- R143, R148: WAKING begins with the oscillator running. -/
def State.wakeRunning (s : State) : State :=
  ((s.setSleep fun x => { x with op := .waking, patrolTimer := none }).setSleepWork fun w =>
    { w with wakingSince := some s.time, awaiting := .both false, roused := .both false, phaseExpiry := none }).wakeRousing

/-! ### Patrols (R142, R143) -/

/-- R142: a patrol begins. -/
def State.beginPatrol (s : State) : State :=
  (s.setSleep fun x =>
    { x with
      op := .patrol, phase := some .oscStart, patrolCount := min (x.patrolCount + 1) 65535
      patrolTimer :=
        match x.patrolTimer, s.patrol with
        | some t, some p => some (.start t.next p.interval)
        | t, _ => t }).setSleepWork fun w =>
    { w with phaseExpiry := some (s.time + micros 500), awaiting := .both false, roused := .both false }

/-- R143: the RESTs of a patrol have ended. -/
def State.endPatrol (s : State) : State :=
  if s.sleep.latched.isEmpty then
    s.stopOscillator.setSleep fun x => { x with op := .asleep, phase := none }
  else s.wakeRunning

/-- R143: the chains roused in this patrol. -/
def State.rousedChains (s : State) : List Chain := Chain.all.filter s.sleepWork.roused.get

/-- R143: phase RESTING of a patrol; with no chain roused it is complete at once. -/
def State.restPatrol (s : State) : State :=
  let cs := s.rousedChains
  let s := s.setSleep fun x => { x with phase := some .resting }
  if cs.isEmpty then s.endPatrol else s.broadcast .rest cs

/-- R143: some node entry of a SENT part is MISSING. -/
def RoundRecord.missed (r : RoundRecord) : Bool :=
  r.parts.any fun p => p.state == .sent && p.readings.any fun x => x.status == .missing

/-- R143: the patrol miss count after a PATROL round, and whether PATROL_MISS is latched. -/
def judgeMiss (count limit : Nat) (r : RoundRecord) : Nat × Bool :=
  if r.missed then (if limit ≤ count + 1 then (0, true) else (count + 1, false))
  else if r.parts.any fun p => p.state == .sent then (0, false)
  else (count, false)

/-- R143: the judgement at the close of the PATROL round, and what follows it. -/
def State.judgePatrol (s : State) (r : RoundRecord) : State :=
  let j := judgeMiss s.sleep.missCount (match s.patrol with | some p => p.missLimit | none => 7) r
  let s := s.setSleep fun x => { x with missCount := j.1 }
  let s := if j.2 then s.latch .patrolMiss else s
  if s.sleep.latched.isEmpty then s.restPatrol else s.wakeRunning

/-- R143: the PATROL round is created. -/
def State.patrolRound (s : State) : State :=
  let s := (s.setSleep fun x => { x with phase := some .round }).setSleepWork fun w => { w with phaseExpiry := none }
  match s.patrol with
  | some p =>
    let r := s.newRound .patrol p.kind false p.chains s.time
    let s := s.createRound r
    if r.neverSent then s.judgePatrol r else s
  | none => s

/-- R143: ROUSING of a patrol; with no patrol chain RUNNING the PATROL round follows at once. -/
def State.patrolRousing (s : State) : State :=
  let cs := (match s.patrol with | some p => p.chains | none => []).filter s.runs
  let s := (s.setSleep fun x => { x with phase := some .rousing }).setSleepWork fun w =>
    { w with phaseExpiry := none, roused := ⟨cs.contains .A, cs.contains .B⟩ }
  if cs.isEmpty then s.patrolRound else s.broadcast .rouse cs

/-- R143, R148: OSC_START ends; feedback sampling resumes (R102). -/
def State.oscillatorReady (s : State) : State :=
  let s := s.startOscillator.setSleepWork fun w => { w with phaseExpiry := none }
  match s.sleep.op with
  | .patrol => s.patrolRousing
  | .waking => s.wakeRousing
  | .unconfigured | .run | .entering | .asleep => s

/-- R143, R148: the node wake time ends. -/
def State.nodesReady (s : State) : State :=
  match s.sleep.op with
  | .patrol => s.patrolRound
  | .waking => s.linkOpen
  | .unconfigured | .run | .entering | .asleep => s

/-- The phase in which the Sleep Controller awaits the end of a REST (true) or of a ROUSE (false). -/
def State.awaitsEnd (s : State) (c : Chain) (rest : Bool) : Bool :=
  s.sleepWork.awaiting.get c && s.sleep.phase == some (if rest then .resting else .rousing)

/-- What follows when every broadcast awaited has ended (R143, R148). -/
def State.broadcastsDone (s : State) : State :=
  match s.sleep.op, s.sleep.phase with
  | .patrol, some .rousing => s.enterNodeWake
  | .waking, some .rousing => s.enterNodeWake
  | .patrol, some .resting => s.endPatrol
  | _, _ => s

/-- The Sleep Controller is told that a chain has rested or risen, or that its broadcast ended without effect (R38,
R44). -/
def State.broadcastEnded (s : State) (c : Chain) (rest : Bool) : State :=
  if s.awaitsEnd c rest then
    let s := s.setSleepWork fun w => { w with awaiting := w.awaiting.set c false }
    if s.broadcastsEnded then s.broadcastsDone else s
  else s

/-! ### The close of a round and what follows it (R21, R22, R143) -/

/-- What the close of a round brings about in the same event. -/
def State.afterClose (s : State) (r : RoundRecord) : State :=
  match r.step with
  | .patrol => s.judgePatrol r
  | .wake => s.wakeRoundClosed
  | .step _ => s

/-- R21: the record `n` closes if it has settled. -/
def State.closeIfSettled (s : State) (n : RoundNumber) : State :=
  if s.closesNow n then
    match s.record n with
    | some r => (s.closeStages n).afterClose r
    | none => s
  else s

/-- R11: a waiting claim is withdrawn, and the round closes when this settles it. -/
def State.withdrawClaim (s : State) (c : Chain) (state : PartState) : State :=
  match s.claimNumber c with
  | some n => (s.withdrawPart c state).closeIfSettled n
  | none => s

/-! ### The end of an event -/

/-- R8, R140: the cursor becomes STOPPED once no claim waits and no round is COLLECTING; in ENTERING the chains are then
put to rest. -/
def State.settleCursor (s : State) : State :=
  let s :=
    if s.cursor.state = .stopping ∧ s.roundsQuiet then { s with cursor := { s.cursor with state := .stopped } } else s
  if s.sleep.op = .entering ∧ s.sleep.phase = some .draining ∧ s.cursor.state = .stopped then
    ((s.setSleep fun x => { x with phase := some .resting }).broadcast .rest s.runningChains).arbitrateBoth
  else s

/-- What an event that bears on the chains or the link ends with: the arbiters decide (R35), the cursor may stop (R8), and
ASLEEP may be reached (R141). -/
def State.finish (s : State) : State :=
  let s := s.arbitrateBoth.settleCursor
  if s.asleepReached then s.fallAsleep else s

/-! ### SLEEP (R137, R138) -/

/-- A PASS is in a forward queue or in flight on the chain (R137). -/
def ChainPort.holdsPass (p : ChainPort) : Bool :=
  !p.forward.isEmpty ||
    match p.transaction with
    | some (.order o _ _ _) => match o.owner with | .pass _ => true | _ => false
    | some (.broadcast o _) => match o.owner with | .pass _ => true | _ => false
    | some .trigger => false
    | none => false

/-- R137: the refusal of SLEEP, in the order of the table. -/
def State.sleepRefusal (s : State) : Option (ReplyStatus × Reason) :=
  if s.sleep.op ≠ .run then some (.refusedState, .state)
  else if ¬ s.allOpen then some (.refusedState, .contactor)
  else if ChannelId.all.any fun k => (s.channel k).welded then some (.refusedState, .welded)
  else if s.sequencer.state ≠ .idle then some (.refusedState, .sequencer)
  else if ChannelId.all.any fun k => (s.channel k).settleExpiry.isSome then some (.busy, .settle)
  else if s.update.state ≠ .closed then some (.busy, .update)
  else if s.captures.list.any fun c => !c.complete then some (.busy, .capture)
  else if (s.port .A).survey ≠ .idle ∨ (s.port .B).survey ≠ .idle then some (.busy, .survey)
  else if (s.port .A).holdsPass || (s.port .B).holdsPass then some (.busy, .pass)
  else none

/-- R144, R145: a tracker at SLEEP taken. -/
def startTracker (w : WakeSetting) (level : Bool) : Tracker :=
  if w.mode = .off ∨ w.pulsed then .inactive else ⟨some level, none, none, none, none⟩

/-- R144, R145: the input is watched in pulses. -/
def WakeSetting.sensed (w : WakeSetting) : Bool := w.mode != .off && w.pulsed

/-- R138: some input calls for pulses. -/
def PatrolTable.pulses (p : PatrolTable) : Bool :=
  WakeSetting.sensed p.inputs.w1 || WakeSetting.sensed p.inputs.w2 || WakeSetting.sensed p.inputs.w3

/-- R138: the trackers start and SENSE_OUT begins its pulses. -/
def State.startTrackers (s : State) : State :=
  match s.patrol with
  | some p =>
    let s := s.setSleep fun x =>
      { x with
        trackers :=
          ⟨startTracker p.inputs.w1 s.pins.wake.w1, startTracker p.inputs.w2 s.pins.wake.w2,
            startTracker p.inputs.w3 s.pins.wake.w3⟩ }
    if PatrolTable.pulses p then s.setSleepWork fun w => { w with senseOut := true, pulseStart := some s.time } else s
  | none => s

/-- R138: SLEEP is taken. -/
def State.enterSleep (s : State) : State :=
  let s := s.stopCursor
  let s := { s with
    stream := s.stream.absented
    ports := ⟨{ s.ports.a with kept := [] }, { s.ports.b with kept := [] }⟩
    link := { s.link with state := .closing } }
  let s := s.setSleep fun x =>
    { x with
      op := .entering, phase := some .draining, shutExpiry := some (s.time + millis 50), missCount := 0, patrolCount := 0,
      latched := .empty }
  (s.setSleepWork fun w =>
    { w with phaseExpiry := none, awaiting := .both false, roused := .both false, wakingSince := none }).startTrackers

/-- R137: SLEEP. -/
def State.requestSleep (s : State) (tag : Byte) : State :=
  match s.sleepRefusal with
  | some (status, reason) => s.refuse tag status reason
  | none => (s.replyFinal tag).enterSleep

/-! ### Wake inputs (R144, R145) -/

/-- The change of filtered level that a mode names (R144). -/
def WakeMode.names (m : WakeMode) (high : Bool) : Bool :=
  match m with
  | .off => false
  | .rise => high
  | .fall => !high
  | .either => true

def State.wakeSetting (s : State) (i : WakeInput) : Option WakeSetting := s.patrol.map fun p => p.inputs.get i

/-- R144: a change of the filtered level is judged against the mode. -/
def State.judgeWake (s : State) (i : WakeInput) (high : Bool) : State :=
  match s.wakeSetting i with
  | some w => if WakeMode.names w.mode high then s.latch (.input i) else s
  | none => s

/-- R144: a tracker whose continuously watched input takes a level. -/
def Tracker.takeLevel (t : Tracker) (high : Bool) (expiry : Instant) : Tracker :=
  match t.filtered with
  | some f =>
    if high = f then { t with pending := none, pendingExpiry := none }
    else { t with pending := some high, pendingExpiry := some expiry }
  | none => t

/-- R144: a wake input takes the other level. -/
def State.wakeLevel (s : State) (i : WakeInput) (high : Bool) : State :=
  match s.wakeSetting i with
  | some w =>
    if WakeSetting.sensed w then s
    else s.setTracker i ((s.sleep.trackers.get i).takeLevel high (s.time + micros w.filter))
  | none => s

/-- R144: the filter of a wake input expires. -/
def State.wakeFiltered (s : State) (i : WakeInput) : State :=
  let t := s.sleep.trackers.get i
  match t.pending with
  | some high =>
    (s.setTracker i { t with filtered := some high, pending := none, pendingExpiry := none }).judgeWake i high
  | none => s

/-- R135, R145: the tracker takes a pulsed sample: the first one is the filtered level, and a later one that agrees with the
one before it makes it so. -/
def Tracker.takeSample (t : Tracker) (level : Bool) : Tracker :=
  { t with
    filtered := if t.filtered.isNone || t.last == some level then some level else t.filtered
    last := some level, previous := t.last }

/-- R145: a sample changes the filtered level: it is the second in a row that differs from it. -/
def Tracker.changesTo (t : Tracker) (level : Bool) : Bool := t.filtered == some (!level) && t.last == some level

/-- R145: one pulsed input is sampled at the end of an on-time. -/
def State.sampleInput (s : State) (i : WakeInput) : State :=
  match s.wakeSetting i with
  | some w =>
    if WakeSetting.sensed w then
      let t := s.sleep.trackers.get i
      let level := s.pins.wake.get i
      let sampled := s.setTracker i (t.takeSample level)
      if t.changesTo level then sampled.judgeWake i level else sampled
    else s
  | none => s

/-- R145: the period of the pulses in µs. -/
def State.pulsePeriod (s : State) : Nat := match s.patrol with | some p => p.pulsePeriod | none => 0
def State.pulseOn (s : State) : Nat := match s.patrol with | some p => p.pulseOn | none => 0

/-- R145: the next pulse starts a period after the last. -/
def State.startPulse (s : State) (last : Instant) : State :=
  s.setSleepWork fun w => { w with senseOut := true, pulseStart := some (last + micros s.pulsePeriod) }

/-- R145: the end of the on-time. -/
def State.samplePulse (s : State) : State :=
  (((s.setSleepWork fun w => { w with senseOut := false }).sampleInput .wake1).sampleInput .wake2).sampleInput .wake3

/-! ### Alerts (R42, R146) -/

/-- The link takes frames in this wake, or the bridge is awake (R42). -/
def State.alertsNoticed (s : State) : Bool :=
  match s.sleep.op with
  | .run | .unconfigured => true
  | .waking => s.link.state != .shut
  | .entering | .asleep | .patrol => false

/-- The chain alert enable (R136). -/
def State.chainAlertEnabled (s : State) : Bool :=
  match s.patrol with
  | some p => p.chainAlert
  | none => false

/-- R42: LOCAL_FAULT from a planned position sets the entry's flag. -/
def State.setLocalFault (s : State) (c : Chain) (position : Nat) : State :=
  s.mapNode c position fun e => { e with localFault := true }

/-- R42, R146: an ALERT that passed its check; a code other than 02h is LOCAL_FAULT (R183). In ASLEEP, and on a chain
that is RESTING, a LOCAL_FAULT is discarded (R42, R142). -/
def State.takeAlert (s : State) (c : Chain) (address code : Byte) : State :=
  let request := code == 0x02#8
  if s.alertsNoticed then
    let s := s.notify (.alert c address request)
    if request then s else s.setLocalFault c address.toNat
  else if request then
    if s.link.state == .shut && s.chainAlertEnabled then s.latch .chainAlert else s
  else if s.sleep.op = .asleep ∨ s.resting c then s
  else s.setLocalFault c address.toNat

end Sys2Proof.Machine
end

