-- ==== Sys2Proof/Machine/Chains.lean ====
section
/-! DEFINITION. What a Chain Port does with the frames that arrive, with the end of a transaction, with a PASS and with the
requests CHAIN_STOP, CHAIN_START and SURVEY (chapter 2); the collection of sample sets (1.6). -/

namespace Sys2Proof.Machine

/-! ### The end of a transaction (R36 to R39, R44) -/

/-- R44, R50: the chain becomes STOPPED: its survey ends ABORTED and CHAIN_STOPPED is noticed last. -/
def State.chainStops (s : State) (c : Chain) (mode : StopMode) : State :=
  let s := s.mapPort c fun p => { p with run := .stopped }
  (s.abortSurvey c).notify (.chainStopped c mode)

/-- R44: a DRAINING chain becomes STOPPED at the end of its transaction in flight. -/
def State.drained (s : State) (c : Chain) : State :=
  if (s.port c).run = .draining ∧ (s.port c).transaction.isNone then s.chainStops c .drain else s

def State.freeChain (s : State) (c : Chain) : State := s.mapPort c fun p => { p with transaction := none }

/-- R20, R21: a SENT part ends, and the round closes when this settles it. -/
def State.partEnds (s : State) (c : Chain) (n : RoundNumber) (cause : EndCause) : State :=
  (s.endPart c n cause).closeIfSettled n

/-! ### Sample sets (R17 to R19) -/

/-- What follows a filled or failed entry: the part may be COMPLETE (R20) and the round close (R21). -/
def State.afterReading (s : State) (c : Chain) (n : RoundNumber) : State :=
  ((s.endIfFull c n).closeIfSettled n).drained c

/-- R17: a SAMPLE SET that passed its check. -/
def State.takeSampleSet (s : State) (c : Chain) (address : Byte) (payload : List Byte) : State :=
  match s.collectingRound c with
  | none => s
  | some r =>
    let set := readSampleSet payload
    if set.roundLow ≠ r.number.truncate 8 then s
    else
      match (r.part c).bind fun p => p.missing address with
      | some x => (s.fillReading c r.number x set).afterReading c r.number
      | none => s

/-- R18: a SAMPLE SET frame that fails its check. -/
def State.takeFailedSet (s : State) (c : Chain) (address : Byte) : State :=
  match s.collectingRound c with
  | none => s
  | some r =>
    match (r.part c).bind fun p => p.missing address with
    | some x => (s.failReading c r.number x).afterReading c r.number
    | none => s

/-- The collecting part of a chain: its record and its actual instant. -/
def State.collectingPart (s : State) (c : Chain) : Option (RoundRecord × ChainPart) :=
  (s.collectingRound c).bind fun r => (r.part c).map fun p => (r, p)

/-- The working collection window of a chain in µs (R32). -/
def State.windowOf (s : State) (c : Chain) : Nat :=
  match s.image with
  | some i => (i.timing c).window
  | none => 0

/-- R20: the collection deadline of the chain is reached. -/
def State.deadlineDue (s : State) (c : Chain) : Bool :=
  match s.collectingPart c with
  | some (_, p) =>
    match p.actual with
    | some a => reached (a + micros (s.windowOf c)) s.time
    | none => false
  | none => false

/-- R20, R23: the TRIGGER frame of a part without node entries has ended. -/
def State.triggerEndDue (s : State) (c : Chain) : Bool :=
  match s.collectingPart c with
  | some (_, p) =>
    match p.actual with
    | some a => p.readings.isEmpty && reached (a + micros triggerFrameTime) s.time
    | none => false
  | none => false

/-- R20: the collecting part of the chain ends with a cause. -/
def State.endCollection (s : State) (c : Chain) (cause : EndCause) : State :=
  match s.collectingRound c with
  | some r => (s.partEnds c r.number cause).drained c
  | none => s

/-- R22: the claim of a WAKE or PATROL round is still waiting at the planned instant plus the collection window. -/
def RoundRecord.claimOverdue (r : RoundRecord) (c : Chain) (window : Nat) (now : Instant) : Bool :=
  r.waitsFor c && (r.step == .wake || r.step == .patrol) && reached (r.planned + micros window) now

def State.withdrawalDue (s : State) (c : Chain) : Bool :=
  match s.pendingRound with
  | some r => r.claimOverdue c (s.windowOf c) s.time
  | none =>
    match s.waitingRound c with
    | some r => r.claimOverdue c (s.windowOf c) s.time
    | none => false

/-! ### Answers and timeouts (R37, R39, R41, R49) -/

/-- R41: what the end of a PASS offers the host. -/
def State.relay (s : State) (c : Chain) (tag : Byte) (position : Nat) (late : Bool) (data : List Byte) : State :=
  s.offer (.relay tag c position late data)

/-- R37: the matching ANSWER goes to the owner of the order, which has measured its round trip where it is an ECHO (R49). -/
def State.orderAnswered (s : State) (c : Chain) (o : Order) (data : List Byte) (trip : Int) : State :=
  match o.owner with
  | .pass tag => s.relay c tag o.position false data
  | .echo => s.echoAnswered c o.position trip
  | .setHoldoff v => s.holdoffAnswered c o.position v
  | .rest => s
  | .rouse => s

/-- R37: the timeout is taken first. -/
def State.orderTimedOut (s : State) (c : Chain) (o : Order) (tag : BitVec 4) : State :=
  match o.owner with
  | .pass passTag =>
    (s.mapPort c fun p => { p with kept := p.kept ++ [KeptTag.mk tag o.position passTag] }).reply passTag .noAnswer .none
  | .echo => s.echoTimedOut c o.position
  | .setHoldoff _ => s.holdoffTimedOut c o.position
  | .rest => s
  | .rouse => s

def KeptTag.fits (k : KeptTag) (tag : BitVec 4) (address : Byte) : Bool :=
  k.tag == tag && k.position == address.toNat

/-- R39: an ANSWER that does not match the transaction in flight. -/
def State.lateAnswer (s : State) (c : Chain) (tag : BitVec 4) (address : Byte) (data : List Byte) : State :=
  match (s.port c).kept.find? fun k => k.fits tag address with
  | some k =>
    (s.mapPort c fun p => { p with kept := p.kept.filter fun k => !k.fits tag address }).relay c k.passTag k.position true
      data
  | none => s

/-- R37, R39: an ANSWER that passed its check. -/
def State.takeAnswer (s : State) (c : Chain) (tag : BitVec 4) (address : Byte) (data : List Byte) (start : Stamp) :
    State :=
  match (s.port c).transaction with
  | some (.order o t sent _) =>
    if tag = t ∧ address.toNat = o.position then
      ((s.freeChain c).orderAnswered c o data (roundTrip sent start)).drained c
    else s.lateAnswer c tag address data
  | some .trigger => s.lateAnswer c tag address data
  | some (.broadcast _ _) => s.lateAnswer c tag address data
  | none => s.lateAnswer c tag address data

/-- R37: the timeout instant of the order in flight is reached. -/
def State.timeoutDue (s : State) (c : Chain) : Bool :=
  match (s.port c).transaction with
  | some (.order _ _ _ timeout) => reached timeout s.time
  | _ => false

def State.takeTimeout (s : State) (c : Chain) : State :=
  match (s.port c).transaction with
  | some (.order o t _ _) => ((s.freeChain c).orderTimedOut c o t).drained c
  | _ => s

/-- R38: the settle instant of the broadcast in flight is reached. -/
def State.settleDue (s : State) (c : Chain) : Bool :=
  match (s.port c).transaction with
  | some (.broadcast _ settle) => reached settle s.time
  | _ => false

/-- R38: the end of a broadcast. -/
def State.broadcastSettles (s : State) (c : Chain) (o : Order) : State :=
  match o.owner with
  | .pass tag => s.reply tag .done .none
  | .rest => (s.restTable c).broadcastEnded c true
  | .rouse => (s.rouseTable c).broadcastEnded c false
  | .echo => s
  | .setHoldoff _ => s

def State.takeSettle (s : State) (c : Chain) : State :=
  match (s.port c).transaction with
  | some (.broadcast o _) => ((s.freeChain c).broadcastSettles c o).drained c
  | _ => s

/-! ### PASS (R40) -/

/-- R40: what a PASS is answered with at once, if anything. -/
def State.passRefusal (s : State) (chain position order : Byte) (data : List Byte) : Option ReplyStatus :=
  match chainOf chain with
  | none => some .badArgument
  | some c =>
    if 16 < position.toNat ∨ 64 < data.length then some .badArgument
    else if 0xF0 ≤ order.toNat then some .badArgument
    else if s.working.isSome ∧ position.toNat ≠ 0 ∧ (s.node c position.toNat).isNone then some .badArgument
    else if ¬ s.runs c then some .chainStopped
    else none

/-- R40: PASS. -/
def State.requestPass (s : State) (chain position order tag : Byte) (data : List Byte) : State :=
  match s.passRefusal chain position order data, chainOf chain with
  | none, some c => s.joinForward c ⟨position.toNat, order, data, .pass tag⟩
  | some status, _ => s.reply tag status .none
  | none, none => s.reply tag .badArgument .none

/-! ### CHAIN_STOP, CHAIN_START (R43 to R46) -/

/-- R44, R45: each PASS in the forward queue is removed, head to tail, and answered CHAIN_STOPPED. -/
def State.emptyForward (s : State) (c : Chain) : State :=
  let q := (s.port c).forward
  q.foldl
    (fun s o =>
      match o.owner with
      | .pass tag => s.reply tag .chainStopped .none
      | _ => s)
    (s.mapPort c fun p => { p with forward := [] })

/-- R44, R45: the internal queue is emptied; a REST or ROUSE in it is reported as ended without effect. -/
def State.emptyInternal (s : State) (c : Chain) : State :=
  let q := (s.port c).internal
  q.foldl
    (fun s o =>
      match o.owner with
      | .rest => s.broadcastEnded c true
      | .rouse => s.broadcastEnded c false
      | _ => s)
    (s.mapPort c fun p => { p with internal := [] })

/-- R44: CHAIN_STOP with DRAIN in RUNNING. The REPLY comes first, then those of the removed PASS frames, then the frames of
a round that the withdrawal closes. -/
def State.drain (s : State) (tag : Byte) (c : Chain) : State :=
  let free := (s.port c).transaction.isNone
  let s := s.mapPort c fun p => { p with run := .draining }
  let s := s.reply tag (if free then .done else .accepted) .none
  let s := ((s.emptyForward c).emptyInternal c).withdrawClaim c .stopped
  s.drained c

/-- R45, step 1: what cutting short the transaction in flight brings about. -/
def State.cutShort (s : State) (c : Chain) : State :=
  match (s.port c).transaction with
  | some .trigger =>
    match s.collectingRound c with
    | some r => s.partEnds c r.number .aborted
    | none => s.freeChain c
  | some (.order o _ _ _) =>
    match o.owner with
    | .pass tag => (s.freeChain c).reply tag .chainStopped .none
    | _ => s.freeChain c
  | some (.broadcast o _) =>
    match o.owner with
    | .pass tag => (s.freeChain c).reply tag .chainStopped .none
    | .rest => (s.freeChain c).broadcastEnded c true
    | .rouse => (s.freeChain c).broadcastEnded c false
    | _ => s.freeChain c
  | none => s

/-- R45: CHAIN_STOP with ABORT in RUNNING or DRAINING, in the order of its steps; nothing they bring about in the event
finds the chain RUNNING any more (entry 18). -/
def State.abort (s : State) (tag : Byte) (c : Chain) : State :=
  let s := (s.mapPort c fun p => { p with run := .stopped }).cutShort c
  let s := s.withdrawClaim c .stopped
  let s := ((s.emptyForward c).emptyInternal c).abortSurvey c
  (s.notify (.chainStopped c .abort)).reply tag .done .none

/-- R44: CHAIN_STOP with DRAIN. -/
def State.requestDrain (s : State) (tag chain : Byte) : State :=
  match chainOf chain with
  | none => s.reply tag .badArgument .none
  | some c =>
    match (s.port c).run with
    | .running => s.drain tag c
    | .draining => s.reply tag .done .none
    | .stopped => s.reply tag .done .none

/-- R45: CHAIN_STOP with ABORT. -/
def State.requestAbort (s : State) (tag chain : Byte) : State :=
  match chainOf chain with
  | none => s.reply tag .badArgument .none
  | some c =>
    match (s.port c).run with
    | .running => s.abort tag c
    | .draining => s.abort tag c
    | .stopped => s.reply tag .done .none

/-- R46: CHAIN_START. -/
def State.requestStart (s : State) (tag chain : Byte) : State :=
  match chainOf chain with
  | none => s.reply tag .badArgument .none
  | some c =>
    match (s.port c).run with
    | .stopped => ((s.mapPort c fun p => { p with run := .running }).reply tag .done .none).pendingSurvey c
    | .running => s.reply tag .done .none
    | .draining => s.reply tag .busy .none

/-- R48: MANAGE SURVEY; the REPLY ACCEPTED is offered before what the survey brings about (R176). -/
def State.requestSurveyNow (s : State) (tag chain : Byte) : State :=
  match chainOf chain with
  | none => s.reply tag .badArgument .none
  | some c =>
    if s.sleep.op = .unconfigured then s.reply tag .refusedState .none
    else if ¬ s.runs c then s.reply tag .chainStopped .none
    else if (s.port c).survey ≠ .idle then s.reply tag .busy .none
    else (s.reply tag .accepted .none).beginSurvey c

end Sys2Proof.Machine
end

