-- ==== Sys2Proof/Machine/Update.lean ====
section
/-! DEFINITION. The Update Engine (chapter 9): the update window, validation, writing, read-back and swap, the tamper and
service inputs, and start-up image selection. -/

namespace Sys2Proof.Machine

def State.setUpdate (s : State) (f : UpdateEngine → UpdateEngine) : State := { s with update := f s.update }

/-- R157, R158, R162: the idle expiry restarts at 10 s. -/
def State.idleEnd (s : State) : Instant := s.time + millis 10000

/-- R151: a record index lies within its table. -/
def recordExists (table index : Byte) : Bool := index.toNat < recordCount table

/-! ### The update window (R157 to R160) -/

/-- R152: the service requirement, clear while UNCONFIGURED. -/
def State.serviceRequired (s : State) : Bool :=
  match s.image with
  | some i => i.serviceRequired
  | none => false

/-- R157: the refusal of UPDATE_OPEN, in the order of the table. -/
def State.openRefusal (s : State) (epoch : Epoch) : Option (ReplyStatus × ResultData) :=
  if s.update.latch then some (.locked, .none)
  else if s.sleep.op = .waking then some (.refusedState, .reason .state)
  else if s.serviceRequired && !s.svcFilter.active then some (.refusedState, .reason .service)
  else if s.update.state ≠ .closed then some (.busy, .none)
  else if epoch = 0#32 ∨ epoch ≤ s.store.floor then some (.badArgument, .none)
  else none

/-- R157: what the staging area is filled with. -/
def State.stagingFill (s : State) : Image := s.image.getD Image.blank

/-- R157: UPDATE_OPEN. -/
def State.requestUpdateOpen (s : State) (tag : Byte) (epoch : Epoch) : State :=
  match s.openRefusal epoch with
  | some (status, result) => s.reply tag status result
  | none =>
    let s := s.setUpdate fun u =>
      { u with
        state := .opened, staging := some s.stagingFill, stagedEpoch := some epoch, idleExpiry := some s.idleEnd }
    s.reply tag .done (.updateOpened s.store.floor s.workingEpoch)

/-- The staged image; empty tables where the staging area is empty. -/
def State.staged (s : State) : Image := s.update.staging.getD Image.erased

/-- R158: UPDATE_STAGE. -/
def State.requestStage (s : State) (tag table index : Byte) (record : Record) : State :=
  if s.update.latch then s.reply tag .locked .none
  else
    match s.update.state with
    | .validating | .writing | .verifying => s.reply tag .busy .none
    | .closed | .applyPending => s.reply tag .refusedState .none
    | .opened =>
      let s := s.setUpdate fun u => { u with idleExpiry := some s.idleEnd }
      if !recordExists table index then s.refuse tag .badArgument .table
      else
        match failingField table index.toNat record with
        | some offset => s.refuse tag .badArgument (.field offset)
        | none =>
          let previous := s.staged.recordAt table index
          (s.setUpdate fun u => { u with staging := some (s.staged.withRecord table index record) }).reply tag .done
            (.record previous)

/-- The source of READ_RECORD (R185): WORKING or STAGED. -/
inductive RecordSource
  | working
  | staged
  deriving DecidableEq, Repr

def recordSource : Byte → Option RecordSource
  | 0x01#8 => some .working
  | 0x02#8 => some .staged
  | _ => none

/-- R159: READ_RECORD; a source code that R185 does not give is answered BAD_ARGUMENT (entry 19). A STAGED record in OPEN that is
answered BAD_ARGUMENT does not move the idle expiry, for it is read as not taken (entry 49, DEDUCED). -/
def State.requestReadRecord (s : State) (tag table index source : Byte) : State :=
  if !recordExists table index then s.reply tag .badArgument .none
  else
    match recordSource source with
    | none => s.reply tag .badArgument .none
    | some .staged =>
      if s.update.state ≠ .opened then s.reply tag .refusedState .none
      else
        (s.setUpdate fun u => { u with idleExpiry := some s.idleEnd }).reply tag .done
          (.record (s.staged.recordAt table index))
    | some .working =>
      match s.image with
      | some i => s.reply tag .done (.record (i.recordAt table index))
      | none => s.reply tag .refusedState .none

/-- R160: the idle expiry. -/
def State.closeWindow (s : State) : State :=
  let epoch := s.update.stagedEpoch
  (s.setUpdate fun u => { u.emptied with lastOutcome := some (.windowClosed, s.time) }).notify (.windowClosed epoch)

/-! ### Validation (R161) -/

/-- R158: the record is marked empty. -/
def emptyMark (r : Record) : Bool := byteAt r 0 == 0

/-- The first index from `n` on whose record is enabled after an empty one. -/
def enabledAfterEmpty : Nat → Bool → List Record → Option Nat
  | _, _, [] => none
  | n, seen, r :: rest =>
    if emptyMark r then enabledAfterEmpty (n + 1) true rest
    else if seen then some n else enabledAfterEmpty (n + 1) seen rest

def stepsFailure (i : Image) : Option Reason :=
  if emptyMark (i.schedule.getD 0 []) then some (.steps 1#8 0#8)
  else
    match enabledAfterEmpty 0 false i.schedule with
    | some n => some (.steps 1#8 (byteOfNat n))
    | none => if i.steps.any ScheduleStep.trigger then none else some (.steps 1#8 Config.noTriggerIndex)

/-- The index of the first element that satisfies a test. -/
def firstIndex {α : Type} (p : α → Bool) (l : List α) : Option Nat :=
  if l.any p then some (l.findIdx p) else none

/-- WIDTH: a TRIGGER step is narrower than the collection window of a chain it names. -/
def tooNarrow (i : Image) (x : ScheduleStep) : Bool :=
  x.trigger && x.chains.any fun c => ScheduleStep.duration x < (i.timing c).window

def widthFailure (i : Image) : Option Reason :=
  (firstIndex (tooNarrow i) i.steps).map fun n => .width 1#8 (byteOfNat n)

/-- The planned count a quantity needs of a position. -/
def plannedCount (q : Quantity) (p : Planned) : Nat :=
  match q with
  | .temp => p.temps
  | .cell | .spread | .current => p.cells

/-- SCOPE: the test of one chain. -/
def outOfScope (i : Image) (e : LimitEntry) (c : Chain) : Bool :=
  let covered := (i.plan c).filter fun p => inRange e.firstPosition e.lastPosition p.position
  covered.isEmpty || covered.all fun p => plannedCount e.quantity p < e.firstChannel

def scopeFails (i : Image) (r : Record) : Bool :=
  match readLimit r with
  | some e => e.quantity != .current && e.chains.any (outOfScope i e)
  | none => false

def scopeFailure (i : Image) : Option Reason :=
  (firstIndex (scopeFails i) i.limit).map fun n => .scope 4#8 (byteOfNat n)

def actionMissing (r : Record) : Bool :=
  match readLimit r with
  | some e => e.action.isNone
  | none => false

def actionFailure (i : Image) : Option Reason :=
  (firstIndex actionMissing i.limit).map fun n => .actionIndex 4#8 (byteOfNat n)

/-- ROLES: the first channel record whose role repeats an earlier one. -/
def repeatedRole (i : Image) : Option Nat :=
  let role := fun k => (i.channelProfile k).role
  if role .K2 = role .K1 then some 1
  else if role .K3 = role .K1 ∨ role .K3 = role .K2 then some 2
  else if role .K4 = role .K1 ∨ role .K4 = role .K2 ∨ role .K4 = role .K3 then some 3
  else none

def rolesFailure (i : Image) : Option Reason := (repeatedRole i).map fun n => .roles 6#8 (byteOfNat n)

def windowFailure (i : Image) : Option Reason :=
  if i.shared.wmax ≤ i.shared.wmin then some (.window 6#8 4#8) else none

def prechargeFailure (i : Image) : Option Reason :=
  if i.shared.prechargeMaximum ≤ i.shared.prechargeMinimum then some (.precharge 6#8 4#8) else none

def checkFailure (i : Image) (identity : BitVec 64) (epoch : Epoch) (word : BitVec 32) : Option Reason :=
  if checkWord identity epoch i = word then none else some .check

/-- R161: the first failure of validation, in the order of the table. -/
def validationFailure (i : Image) (identity : BitVec 64) (epoch : Epoch) (word : BitVec 32) : Option Reason :=
  stepsFailure i <|> widthFailure i <|> scopeFailure i <|> actionFailure i <|> rolesFailure i <|> windowFailure i <|>
    prechargeFailure i <|> checkFailure i identity epoch word

/-! ### Commit (R161 to R164) -/

/-- R161: UPDATE_COMMIT; the REPLY is owed until validation ends. -/
def State.requestCommit (s : State) (tag : Byte) (word : BitVec 32) : State :=
  if s.update.latch then s.reply tag .locked .none
  else
    match s.update.state with
    | .validating | .writing | .verifying => s.reply tag .busy .none
    | .closed | .applyPending => s.reply tag .refusedState .none
    | .opened =>
      { s.setUpdate fun u => { u with state := .validating, idleExpiry := none } with
        commit := ⟨some tag, word, 0#32, some (s.time + millis 2), false⟩ }

/-- The answer of the commit, whose REPLY is owed (R161, R162, R169). -/
def State.answerCommit (s : State) (status : ReplyStatus) (result : ResultData) : State :=
  match s.commit.tag with
  | some tag => { s with commit := { s.commit with tag := none } }.reply tag status result
  | none => s

/-- R163: the target slot. -/
def State.targetSlot (s : State) : Slot :=
  match s.working with
  | some w => match w.slot with | .A => .B | .B => .A
  | none =>
    if s.store.slotA.state ≠ .valid then .A
    else if s.store.slotB.state ≠ .valid then .B
    else if s.store.slotA.epoch < s.store.slotB.epoch then .A
    else .B

def State.setSlot (s : State) (k : Slot) (f : SlotContents → SlotContents) : State :=
  { s with store := s.store.setSlot k (f (s.store.slot k)) }

/-- The staged epoch, 0 where none is staged. -/
def State.stagedEpoch (s : State) : Epoch := s.update.stagedEpoch.getD 0#32

/-- R163: writing begins: the slot's header becomes WRITING with the staged epoch, and the slot is erased; the check word of
the header stays until the swap (entry 48). -/
def State.startWriting (s : State) (kept : BitVec 32) : State :=
  let k := s.targetSlot
  let s := s.setSlot k fun c => { c with state := .writing, epoch := s.stagedEpoch, image := Image.erased }
  { s.setUpdate fun u => { u with state := .writing, target := some k } with
    commit := { s.commit with kept := kept, bound := some (s.time + millis 40), storeFault := false } }

/-- R162: the end of validation. -/
def State.endValidation (s : State) : State :=
  match validationFailure s.staged s.store.identity s.stagedEpoch s.commit.word with
  | some reason =>
    let s := s.answerCommit .refusedState (.reason reason)
    { s.setUpdate fun u => { u with state := .opened, idleExpiry := some s.idleEnd } with commit := .none }
  | none => (s.answerCommit .accepted .none).startWriting (checkWord s.store.identity s.stagedEpoch s.staged)

/-- The target slot becomes INVALID (R164, R165, R169). -/
def State.invalidateTarget (s : State) : State :=
  match s.update.target with
  | some k => s.setSlot k fun c => { c with state := .invalid }
  | none => s

/-- R164, R165, R169: a commit fails or is abandoned; COMMIT_FAILED is noticed. -/
def State.failCommit (s : State) (reason : CommitFailure) : State :=
  let epoch := if reason = .verify then s.update.stagedEpoch else none
  let s := s.invalidateTarget
  { s.setUpdate fun u => { u.emptied with lastOutcome := some (.commitFailed reason, s.time) } with
    commit := .none }.notify (.commitFailed reason epoch)

/-- R164: writing ends, the slot's cells holding `programmed`. -/
def State.endWriting (s : State) (programmed : Image) : State :=
  let s :=
    match s.update.target with
    | some k => s.setSlot k fun c => { c with image := programmed }
    | none => s
  { s.setUpdate fun u => { u with state := .verifying } with
    commit := { s.commit with bound := some (s.time + millis 2) } }

/-- R164: the word recomputed from the target slot. -/
def State.readBackWord (s : State) : BitVec 32 :=
  match s.update.target with
  | some k => checkWord s.store.identity (s.store.slot k).epoch (s.store.slot k).image
  | none => 0#32

/-- R164: the swap, one nonvolatile step, with what follows it in the same event. -/
def State.swap (s : State) : State :=
  let epoch := s.stagedEpoch
  let s :=
    match s.update.target with
    | some k => s.setSlot k fun c => { c with state := .valid, epoch := epoch, check := s.commit.kept }
    | none => s
  let s := { s with store := { s.store with floor := epoch }, commit := .none }
  let s := s.setUpdate fun u => { u.emptied with state := .applyPending }
  if s.sleep.op = .unconfigured then s.apply else s

/-- R164: the end of read-back. -/
def State.endReadBack (s : State) : State :=
  if s.commit.storeFault ∨ s.readBackWord ≠ s.commit.kept then s.failCommit .verify else s.swap

/-- R163, R164: the store reports a fault: in WRITING the commit fails at once, in VERIFYING at the end of read-back. -/
def State.takeStoreFault (s : State) : State :=
  match s.update.state with
  | .writing => s.failCommit .verify
  | .verifying => { s with commit := { s.commit with storeFault := true } }
  | .closed | .opened | .validating | .applyPending => s

/-- R165: UPDATE_ABORT; no rule orders the DONE and the COMMIT_FAILED of an abandoned commit (entry 3). -/
def State.requestUpdateAbort (s : State) (tag : Byte) : State :=
  match s.update.state with
  | .closed | .applyPending => s.reply tag .refusedState .none
  | .opened => (s.setUpdate UpdateEngine.emptied).reply tag .done .none
  | .validating => s.reply tag .busy .none
  | .writing | .verifying => s.anyOrder [fun s => s.reply tag .done .none, fun s => s.failCommit .aborted]

/-! ### The tamper and service inputs (R168 to R170) -/

/-- R168: the filter of an input that takes a level. -/
def InputFilter.take (f : InputFilter) (level : Bool) (now : Instant) : InputFilter :=
  if !f.running then f
  else if level = f.active then { f with pending := none, pendingExpiry := none }
  else { f with pending := some level, pendingExpiry := some (now + 1000#32) }

/-- R168: the filters begin with the filtered level inactive. -/
def InputFilter.begin_ (level : Bool) (now : Instant) : InputFilter := InputFilter.take ⟨true, false, none, none⟩ level now

/-- R168: the filtered level takes the pending level. -/
def InputFilter.expire (f : InputFilter) : InputFilter :=
  { f with active := f.pending.getD f.active, pending := none, pendingExpiry := none }

/-- R169: what a tamper event does to the update. -/
def State.tamperUpdate (s : State) : State :=
  match s.update.state with
  | .closed => s
  | .opened => s.setUpdate UpdateEngine.emptied
  | .validating => { (s.answerCommit .locked .none).setUpdate UpdateEngine.emptied with commit := .none }
  | .writing | .verifying => s.failCommit .tamper
  | .applyPending => s

/-- R169: the tamper event, its further effects in the order of the list. -/
def State.tamperEvent (s : State) : State :=
  let before := s.update.state
  let s := s.tamperUpdate.setUpdate fun u => { u with latch := true }
  let s := { s with store := { s.store with tamperFlag := true } }
  let s := s.requestCapture (.action .tamper) none
  let s := s.fire (match s.image with | some i => i.tamperAction | none => none) .tamper none
  (s.notifyAwake (.tamper before)).latch .tamper

/-- R168: the TAMP# filter expires. -/
def State.tampFiltered (s : State) : State :=
  let s := { s with tampFilter := s.tampFilter.expire }
  if s.tampFilter.active then s.tamperEvent else s

/-- R170: TAMPER_CLEAR. -/
def State.requestTamperClear (s : State) (tag : Byte) : State :=
  if s.tampFilter.active then s.refuse tag .refusedState .tamper
  else if !s.svcFilter.active then s.refuse tag .refusedState .service
  else
    { s.setUpdate fun u => { u with latch := false } with store := { s.store with tamperFlag := false } }.reply tag .done
      .none

/-! ### Start-up image selection (R155, R150) -/

/-- R155, steps 1 and 2: what selection makes of a slot. -/
def SlotContents.examined (c : SlotContents) (identity : BitVec 64) : SlotContents :=
  match c.state with
  | .writing => { c with state := .invalid }
  | .valid => if checkWord identity c.epoch c.image = c.check then c else { c with state := .invalid }
  | .erased => c
  | .invalid => c

/-- R155, step 3: a VALID slot at or above the floor. -/
def SlotContents.acceptable (c : SlotContents) (floor : Epoch) : Bool := c.state == .valid && floor ≤ c.epoch

/-- R155: the store after steps 1 and 2. -/
def ImageStore.examined (x : ImageStore) : ImageStore :=
  { x with slotA := x.slotA.examined x.identity, slotB := x.slotB.examined x.identity }

/-- R155, step 3: the acceptable slot with the highest epoch, slot A when they are equal. -/
def ImageStore.select (x : ImageStore) : Option Slot :=
  match x.slotA.acceptable x.floor, x.slotB.acceptable x.floor with
  | true, true => if x.slotA.epoch < x.slotB.epoch then some .B else some .A
  | true, false => some .A
  | false, true => some .B
  | false, false => none

/-- R26: a Node Table is built from its Node Plan as from an empty plan; the survey waits until the bridge is RUN. -/
def State.startRun (s : State) (k : Slot) : State :=
  ((s.takeImage k).rebuildNodes .A).rebuildNodes .B

/-- R155: start-up image selection completes. -/
def State.endSelection (s : State) : State :=
  let s := { s with
    store := s.store.examined
    startup := none
    link := s.link.openLink
    tampFilter := .begin_ s.pins.tamp s.time
    svcFilter := .begin_ s.pins.svc s.time }
  let s := s.setUpdate fun u => { u.emptied with latch := s.store.tamperFlag }
  match s.store.select with
  | some k =>
    let s := (s.startRun k).setSleep fun x => { x with op := .run }
    (((s.startCursor).joinInternal .A .rouse).joinInternal .B .rouse).pendingSurveys
  | none => (s.joinInternal .A .rouse).joinInternal .B .rouse

end Sys2Proof.Machine
end

