-- ==== Sys2Proof/Machine/Requests.lean ====
section
/-! DEFINITION. The requests of the Round Ring, the Capture Unit and the reclose inhibit set (R86, R93 to R96, R130), and
what each request of the host does once it is taken (R176). -/

namespace Sys2Proof.Machine

/-! ### READ_ROUND (R86) -/

def State.requestReadRound (s : State) (tag : Byte) (n : RoundNumber) : State :=
  match s.record n with
  | some r => if r.closed then s.reply tag .done (.round r) else s.reply tag .busy .none
  | none => s.reply tag .noSuch .none

/-! ### Captures (R93 to R96) -/

/-- R93: CAPTURE_NOW; the REPLY is offered before CAPTURE_DONE. -/
def State.requestCaptureNow (s : State) (tag : Byte) : State :=
  if s.captures.list.length < 3 then
    let c := s.newCapture .host none
    ((s.addCapture c).reply tag .done (.captureId c.id)).noticeDone c
  else (s.recordRefusal .host).reply tag .refusedState .none

def State.captureWith (s : State) (id : Byte) : Option Capture := s.captures.list.find? fun c => c.id == id

/-- R94: the HEADER part. R53 counts the newest entry of the history to the stream's part of a capture's header, and the list of
R94 does not name it: that the HEADER carries it too, from the snapshot, is the model's choice (DEDUCED, entry 56). -/
def Capture.header (c : Capture) : CaptureHeader :=
  { id := c.id, cause := c.cause, instant := c.instant, epoch := c.epoch, pre := c.pre, post := c.post
    complete := c.complete, anchor := c.anchor, entries := c.samples.length, stream := c.stream
    newest := c.samples.getLast?, contactors := c.contactors, sequencer := c.sequencer, held := c.held }

/-- R95: a CURRENT block: 32 entries from index 32 × b. -/
def Capture.block (c : Capture) (b : Nat) : List CurrentSample := (c.samples.drop (32 * b)).take 32

/-- The parts of READ_CAPTURE (R94, R185). -/
inductive CapturePart
  | header
  | current (block : Nat)
  | round (index : Nat)
  deriving DecidableEq, Repr

/-- R94, step 1: the part a request names, absent when the code or b or i is out of range. -/
def capturePart (part index : Byte) : Option CapturePart :=
  match part with
  | 0x01#8 => some .header
  | 0x02#8 => if index.toNat ≤ 7 then some (.current index.toNat) else none
  | 0x03#8 => if index.toNat ≤ 7 then some (.round index.toNat) else none
  | _ => none

/-- R95: the record of the held round of an index. -/
def State.heldRecord (s : State) (c : Capture) (index : Nat) : Option RoundRecord :=
  match c.held[index]? with
  | some h => if h.dropped then none else s.record h.number
  | none => none

/-- R94: READ_CAPTURE; the HEADER is answered whatever the index byte is (entry 22), with the newest entry of the snapshot
(entry 56). -/
def State.requestReadCapture (s : State) (tag id part index : Byte) : State :=
  match capturePart part index, s.captureWith id with
  | none, _ => s.reply tag .badArgument .none
  | some _, none => s.reply tag .noSuch .none
  | some .header, some c => s.reply tag .done (.captureHeader c.header)
  | some (.current b), some c =>
    if (c.block b).isEmpty then s.reply tag .noSuch .none else s.reply tag .done (.currentBlock (c.block b))
  | some (.round i), some c =>
    match s.heldRecord c i with
    | some r => s.reply tag .done (.roundPart index r)
    | none => s.reply tag .noSuch .none

/-- R96: RELEASE_CAPTURE. -/
def State.requestRelease (s : State) (tag id : Byte) : State :=
  match s.captureWith id with
  | some c => (s.releaseCapture c).reply tag .done .none
  | none => s.reply tag .noSuch .none

/-! ### ACK_TRIP (R130) -/

def Channel.flag (c : Channel) : FaultKind → Bool
  | .stuck => c.stuck
  | .dropped => c.dropped
  | .welded => c.welded

/-- R130: the condition of a cause is gone. -/
def State.conditionGone (s : State) : Cause → Bool
  | .limit i => (s.limits.getD i .normal).state == .normal
  | .node c p =>
    match s.node c p with
    | some e => e.state != .lost
    | none => true
  | .current => s.stream.state == .live
  | .supervision => true
  | .contactor k f => !(s.channel k).flag f
  | .tamper => !s.update.latch

/-- R130: ACK_TRIP. -/
def State.requestAck (s : State) (tag kind field1 field2 : Byte) : State :=
  match decodeCause kind field1 field2 with
  | none => s.reply tag .badArgument .none
  | some c =>
    if c ∉ s.inhibit then s.reply tag .noSuch .none
    else if s.conditionGone c then
      let left := s.inhibit.filter fun d => d != c
      { s with inhibit := left }.reply tag .done (.causesLeft left.length)
    else s.reply tag .refusedState .none

/-! ### The requests of the host (R176) -/

/-- What a taken frame's request does in its owning block; a command that is no request changes nothing. The arbiters
decide after the requests that R35 names. -/
def State.handle (s : State) : Instr → State
  | .pass c p o t d => (s.requestPass c p o t d).finish
  | .status t x => s.requestStatus t x
  | .bridgeReset t => s.requestBridgeReset t
  | .chainStopDrain t c => (s.requestDrain t c).finish
  | .chainStopAbort t c => (s.requestAbort t c).finish
  | .chainStart t c => (s.requestStart t c).finish
  | .survey t c => (s.requestSurveyNow t c).finish
  | .readRound t n => s.requestReadRound t n
  | .captureNow t => s.requestCaptureNow t
  | .readCapture t i p n => s.requestReadCapture t i p n
  | .releaseCapture t i => s.requestRelease t i
  | .connect t => s.requestConnect t
  | .disconnect t => s.requestDisconnect t
  | .auxClose t => s.requestAuxClose t
  | .auxOpen t => s.requestAuxOpen t
  | .ackTrip t k f g => s.requestAck t k f g
  | .supervise t n => s.requestSupervise t n
  | .sleep t => (s.requestSleep t).finish
  | .updateOpen t e => s.requestUpdateOpen t e
  | .updateStage t b i r => s.requestStage t b i r
  | .readRecord t b i x => s.requestReadRecord t b i x
  | .updateCommit t w => s.requestCommit t w
  | .updateAbort t => s.requestUpdateAbort t
  | .tamperClear t => s.requestTamperClear t
  | _ => s

end Sys2Proof.Machine
end

