-- ==== Sys2Proof/Machine/Reset.lean ====
section
/-! DEFINITION. The resets (R2, R181, R182) and the exchanges of the Host Link (R172 to R178). -/

namespace Sys2Proof.Machine

/-- HSEL# is low. -/
def State.selected (s : State) : Bool := s.link.exchange.isSome

/-- R181: the request reset; a low RESET# goes on counting its 10 µs through it (R182). -/
def State.requestReset (s : State) : State := State.afterReset s.store s.pins s.selected s.free s.pending

/-- RESET# at a power-on: a level that is low counts its 10 µs from the start (entry 30). -/
def ResetPin.powered : ResetPin → ResetPin
  | .high => .high
  | .low _ => .low 0
  | .held => .low 0

/-- R2: POR. -/
def State.powerOn (s : State) : State :=
  State.afterReset s.store { s.pins with reset := s.pins.reset.powered } s.selected s.free s.pending

/-- R182: a channel while the pin reset holds it: no settle and no debounce runs. -/
def Channel.hold_ (c : Channel) : Channel := { c with settleExpiry := none, debounceExpiry := none }

/-- R182: a pin reset begins: every block takes its reset values and holds them. -/
def State.pinReset (s : State) : State :=
  let s := State.afterReset s.store { s.pins with reset := .held } s.selected s.free s.pending
  { s with
    startup := none
    channels := ⟨s.channels.k1.hold_, s.channels.k2.hold_, s.channels.k3.hold_, s.channels.k4.hold_⟩ }

/-- R182: RESET# goes low; KDR1 to KDR4 go off with it (`State.kdr`). -/
def State.resetGoesLow (s : State) : State :=
  match s.pins.reset with
  | .high => { s with pins := { s.pins with reset := .low 0 } }
  | .low _ => s
  | .held => s

/-- R182: RESET# has stayed low for 10 µs. -/
def State.pinResetDue (s : State) : Bool :=
  match s.pins.reset with
  | .low elapsed => 10 ≤ elapsed
  | .high => false
  | .held => false

/-- R182: RESET# returns high: after a pin reset start-up runs, after a shorter pulse every block keeps its state. -/
def State.resetGoesHigh (s : State) : State :=
  match s.pins.reset with
  | .high => s
  | .low _ => { s with pins := { s.pins with reset := .high } }
  | .held => State.afterReset s.store { s.pins with reset := .high } s.selected s.free s.pending

/-! ### Exchanges -/

/-- R172: HSEL# goes low; in a SHUT link this is a wake source (R146). -/
def State.beginExchange (s : State) : State :=
  if s.selected then s
  else if s.link.state = .shut then
    { s with link := { s.link with exchange := some ⟨.shut, 0xFF#8, none, [], false⟩ } }.latch .hostSelect
  else { s with link := { s.link with exchange := some ⟨.live, s.statusByte, s.link.queue.head?, [], false⟩ } }

/-- R174, R175: the inbound bytes of an exchange in a link that is not SHUT are judged. -/
def State.judgeInbound (s : State) (inbound : List Byte) : State :=
  match decodeInbound inbound with
  | .none => { s with link := s.link.noInbound }
  | .failed => { s with link := s.link.checkFailed }
  | .badRequest tag => s.takeInbound fun s => s.reply tag .badArgument .none
  | .request i => s.takeInbound fun s => s.handle i

/-- R139: the inbound frame of an exchange that continues under the closing phase after the shut is not taken. -/
def State.judgeClosing (s : State) (inbound : List Byte) : State :=
  if s.link.state = .shut then
    match decodeInbound inbound with
    | .none => { s with link := s.link.noInbound }
    | .failed => { s with link := s.link.checkFailed }
    | .badRequest _ => { s with link := s.link.discard }
    | .request _ => { s with link := s.link.discard }
  else s

/-- R139, R181: what follows the exchange in which the DONE of a SLEEP or a BRIDGE_RESET has been clocked out whole. -/
def State.afterFinal (s : State) : State :=
  match s.link.state with
  | .closing => s.shutHostLink.finish
  | .resetting => s.requestReset
  | .shut => s
  | .opened => s

/-- R172: HSEL# returns high: the outbound frame is settled, then the inbound frame judged. The inbound frame of an exchange
that began in a SHUT link is not judged, also where the link has opened since (entry 29). -/
def State.endExchange (s : State) (inbound : List Byte) : State :=
  match s.link.exchange with
  | none => s
  | some e =>
    let s := { s with link := { s.link with exchange := none } }
    match e.kind with
    | .shut => s
    | .closing => s.judgeClosing inbound
    | .live =>
      let s := (s.settleExchange e inbound.length).judgeInbound inbound
      if e.clockedFinal inbound.length then s.afterFinal else s

end Sys2Proof.Machine
end

