-- ==== Sys2Proof/Machine/Timers.lean ====
section
/-! DEFINITION. When each timer of the block has run out: the conditions under which a timer command acts, and under which
a tick raises it. -/

namespace Sys2Proof.Machine

/-- R181: the reset expiry, unless the DONE has been clocked out whole by then. -/
def State.resetExpiryDue (s : State) : Bool :=
  s.link.state == .resetting && expired s.link.resetExpiry s.time && !s.finalClocked

/-- R6, R11: the present step is at its end and the cursor leaves it, or a claim kept in STOPPING is withdrawn. -/
def State.stepDue (s : State) : Bool :=
  reached s.stepEnd s.time &&
    match s.cursor.state with
    | .running => true
    | .stopping => s.claimWaits .A || s.claimWaits .B
    | .stopped => false
    | .starting => false

/-- R53. -/
def State.lossDue (s : State) : Bool := s.stream.state == .live && expired s.stream.lossExpiry s.time

/-- R107. -/
def State.pullInDue (s : State) (k : ChannelId) : Bool :=
  (s.channel k).state == .pullIn && expired (s.channel k).phaseExpiry s.time

/-- R108. -/
def State.dropoutDue (s : State) (k : ChannelId) : Bool :=
  (s.channel k).state == .dropout && expired (s.channel k).phaseExpiry s.time

/-- R102. -/
def State.debounceDue (s : State) (k : ChannelId) : Bool := expired (s.channel k).debounceExpiry s.time

/-- R103. -/
def State.channelSettleDue (s : State) (k : ChannelId) : Bool := expired (s.channel k).settleExpiry s.time

/-- R106. -/
def State.pwmDue (s : State) (k : ChannelId) : Bool :=
  (s.channel k).state == .hold && (s.pwmPeriodDue k || s.pwmOffDue k)

/-- R121. -/
def State.minimumDue (s : State) : Bool :=
  s.sequencer.state == .precharging && !s.sequencer.minimumTaken && expired s.sequencer.minimumExpiry s.time

/-- R121. -/
def State.maximumDue (s : State) : Bool :=
  s.sequencer.state == .precharging && expired s.sequencer.maximumExpiry s.time

/-- R133. -/
def State.supervisionDue (s : State) : Bool := s.window.armed && expired s.window.expiry s.time

/-- R139: the shut expiry, unless the DONE has been clocked out whole by then. -/
def State.shutDue (s : State) : Bool :=
  s.link.state == .closing && expired s.sleep.shutExpiry s.time && !s.finalClocked

/-- R142. -/
def State.patrolDue (s : State) : Bool :=
  s.sleep.op == .asleep &&
    match s.sleep.patrolTimer with
    | some t => t.left == 0
    | none => false

/-- R143, R148. -/
def State.oscDue (s : State) : Bool :=
  s.sleep.phase == some .oscStart && expired s.sleepWork.phaseExpiry s.time

/-- R143, R148. -/
def State.nodeWakeDue (s : State) : Bool :=
  s.sleep.phase == some .nodeWake && expired s.sleepWork.phaseExpiry s.time

/-- R144. -/
def State.wakeFilterDue (s : State) (i : WakeInput) : Bool := expired (s.sleep.trackers.get i).pendingExpiry s.time

/-- R145: a pulse period is over. -/
def State.pulseStartDue (s : State) : Bool :=
  match s.sleepWork.pulseStart with
  | some t => !s.sleepWork.senseOut && reached (t + micros s.pulsePeriod) s.time
  | none => false

/-- R145: an on-time is over. -/
def State.pulseSampleDue (s : State) : Bool :=
  match s.sleepWork.pulseStart with
  | some t => s.sleepWork.senseOut && reached (t + micros s.pulseOn) s.time
  | none => false

/-- R168. -/
def InputFilter.due (f : InputFilter) (now : Instant) : Bool := expired f.pendingExpiry now

/-- R160. -/
def State.idleDue (s : State) : Bool := s.update.state == .opened && expired s.update.idleExpiry s.time

/-- The longest time of a phase of the commit is over (R161, R163, R164). -/
def State.commitDue (s : State) (state : UpdateState) : Bool := s.update.state == state && expired s.commit.bound s.time

/-- R155: the longest time of selection is over. -/
def State.selectionDue (s : State) : Bool := expired s.startup s.time

/-! ### What a tick raises (entry 2) -/

def raise (due : Bool) (i : Instr) : List Instr := if due then [i] else []

def State.dueOnChain (s : State) (c : Chain) : List Instr :=
  raise (s.timeoutDue c) (.orderTimeout c) ++ raise (s.settleDue c) (.broadcastSettle c) ++
  raise (s.triggerEndDue c) (.triggerFrameEnd c) ++ raise (s.deadlineDue c) (.collectionDeadline c) ++
  raise (s.withdrawalDue c) (.waitingClaimWithdrawal c)

def State.dueOnChannel (s : State) (k : ChannelId) : List Instr :=
  raise (s.pullInDue k) (.pullInExpiry k) ++ raise (s.dropoutDue k) (.dropoutExpiry k) ++
  raise (s.debounceDue k) (.debounceExpiry k) ++ raise (s.channelSettleDue k) (.settleExpiry k) ++
  raise (s.pwmDue k) (.holdPwmPeriod k)

def State.dueInUpdate (s : State) : List Instr :=
  raise s.idleDue .idleExpiry ++ raise (s.commitDue .validating) .validationEnd ++
  raise (s.commitDue .writing) (.writingEnd s.staged) ++ raise (s.commitDue .verifying) .readbackEnd

def State.dueInSleep (s : State) : List Instr :=
  raise s.shutDue .shutExpiry ++ raise s.patrolDue .patrolTimerExpiry ++ raise s.oscDue .oscStartEnd ++
  raise s.nodeWakeDue .nodeWakeEnd ++ (WakeInput.all.flatMap fun i => raise (s.wakeFilterDue i) (.wakeFilterExpiry i)) ++
  raise s.pulseStartDue .sensePulseStart ++ raise s.pulseSampleDue .sensePulseSample

/-- The timer commands that are due now. -/
def State.dueEvents (s : State) : List Instr :=
  raise s.resetExpiryDue .resetExpiry ++ raise s.stepDue .stepExpiry ++ s.dueOnChain .A ++ s.dueOnChain .B ++
  raise s.lossDue .lossTimerExpiry ++ (ChannelId.all.flatMap s.dueOnChannel) ++
  raise s.minimumDue .prechargeMinimumExpiry ++ raise s.maximumDue .prechargeMaximumExpiry ++
  raise s.supervisionDue .supervisionExpiry ++ s.dueInSleep ++ raise (s.tampFilter.due s.time) .tampFilterExpiry ++
  raise (s.svcFilter.due s.time) .svcFilterExpiry ++ s.dueInUpdate ++ raise s.pinResetDue .pinReset ++
  raise s.selectionDue .startupSelectionEnd

/-- R182: RESET# stays low for another microsecond; 10 are enough. -/
def ResetPin.passMicrosecond : ResetPin → ResetPin
  | .high => .high
  | .low elapsed => .low (min (elapsed + 1) 10)
  | .held => .held

/-- R1, R135, R182: one microsecond passes; the patrol timer and a low RESET# count by themselves. -/
def State.passMicrosecond (s : State) : State :=
  { s with
    time := s.time + 1#32
    pins := { s.pins with reset := s.pins.reset.passMicrosecond }
    sleep := { s.sleep with patrolTimer := s.sleep.patrolTimer.map fun t => { t with left := t.left - 1 } } }

/-- The step on an empty queue (entry 1): a microsecond passes, and the timer commands then due join the queue in a free
order (entries 2 and 3). A pin reset holds the Timebase (R182). -/
def State.tick (s : State) : State :=
  if s.held then s
  else
    let s := s.passMicrosecond
    let due := s.dueEvents
    { s with pending := s.pending ++ shuffle s.free due, free := s.free + due.length }

end Sys2Proof.Machine
end

