-- ==== Sys2Proof/Machine/Exchanges.lean ====
section
/-! DEFINITION. The exchanges of the Host Link (R172), and how a request command acts: a good inbound frame that
carries the request has been judged (R174 to R176). -/

namespace Sys2Proof.Machine

/-- A request command: the frame is taken and the request handled, or the frame is discarded (R175). -/
def State.request (s : State) (f : State → State) : State :=
  s.unlessHeld fun s => s.takeInbound f

/-- A timer command acts when its timer has run out (entry 4), unless a pin reset holds the blocks. -/
def State.timed (s : State) (due : State → Bool) (f : State → State) : State :=
  s.unlessHeld fun s => if due s then f s else s

/-! ### The lines of an exchange (R172) -/

/-- R172: HSCK rises in an exchange, and the bit on HSDI is sampled. -/
def State.clockRises (s : State) (hsdi : Bool) : State :=
  s.unlessHeld fun s =>
    { s with link := { s.link with
      exchange := s.link.exchange.map fun e => if e.clock then e else { e with bits := e.bits ++ [hsdi], clock := true } } }

/-- R172: HSCK falls in an exchange, and the next bit stands on HSDO (`State.hsdoBit`). -/
def State.clockFalls (s : State) : State :=
  s.unlessHeld fun s => { s with link := { s.link with exchange := s.link.exchange.map fun e => { e with clock := false } } }

/-- R172: HSEL# returns high; EXCHANGE_END joins the queue of commands with the bytes that HSDI carried (entry 53). -/
def State.selectRises (s : State) : State :=
  match s.link.exchange with
  | some e => { s with pending := s.pending ++ [.exchangeEnd (bytesOfBits e.bits)] }
  | none => s

/-- R172: EXCHANGE_BEGIN. -/
def execExchangeBegin (s : State) : Host.Outcome State Fault Refusal :=
  .next s.beginExchange

/-- R172: EXCHANGE_END. -/
def execExchangeEnd (inbound : List Byte) (s : State) : Host.Outcome State Fault Refusal :=
  .next (s.endExchange inbound)

end Sys2Proof.Machine
end

