-- ==== Sys2Proof/Machine/Manage.lean ====
section
/-! DEFINITION. The requests of the host, one meaning each (10.6). -/

namespace Sys2Proof.Machine

/-- R40: PASS. -/
def execPass (chain position order tag : Byte) (data : List Byte) (s : State) : Host.Outcome State Fault Refusal :=
  .next (s.request fun s => (s.requestPass chain position order tag data).finish)

/-- R180: STATUS. -/
def execStatus (tag sect : Byte) (s : State) : Host.Outcome State Fault Refusal :=
  .next (s.request fun s => s.requestStatus tag sect)

/-- R181: BRIDGE_RESET. -/
def execBridgeReset (tag : Byte) (s : State) : Host.Outcome State Fault Refusal :=
  .next (s.request fun s => s.requestBridgeReset tag)

/-- R44: CHAIN_STOP with DRAIN. -/
def execChainStopDrain (tag chain : Byte) (s : State) : Host.Outcome State Fault Refusal :=
  .next (s.request fun s => (s.requestDrain tag chain).finish)

/-- R45: CHAIN_STOP with ABORT. -/
def execChainStopAbort (tag chain : Byte) (s : State) : Host.Outcome State Fault Refusal :=
  .next (s.request fun s => (s.requestAbort tag chain).finish)

/-- R46: CHAIN_START. -/
def execChainStart (tag chain : Byte) (s : State) : Host.Outcome State Fault Refusal :=
  .next (s.request fun s => (s.requestStart tag chain).finish)

/-- R48: SURVEY. -/
def execSurvey (tag chain : Byte) (s : State) : Host.Outcome State Fault Refusal :=
  .next (s.request fun s => (s.requestSurveyNow tag chain).finish)

/-- R86: READ_ROUND. -/
def execReadRound (tag : Byte) (round : RoundNumber) (s : State) : Host.Outcome State Fault Refusal :=
  .next (s.request fun s => s.requestReadRound tag round)

/-- R93: CAPTURE_NOW. -/
def execCaptureNow (tag : Byte) (s : State) : Host.Outcome State Fault Refusal :=
  .next (s.request fun s => s.requestCaptureNow tag)

/-- R94: READ_CAPTURE. -/
def execReadCapture (tag id part index : Byte) (s : State) : Host.Outcome State Fault Refusal :=
  .next (s.request fun s => s.requestReadCapture tag id part index)

/-- R96: RELEASE_CAPTURE. -/
def execReleaseCapture (tag id : Byte) (s : State) : Host.Outcome State Fault Refusal :=
  .next (s.request fun s => s.requestRelease tag id)

/-- R118: CONNECT. -/
def execConnect (tag : Byte) (s : State) : Host.Outcome State Fault Refusal :=
  .next (s.request fun s => s.requestConnect tag)

/-- R125: DISCONNECT. -/
def execDisconnect (tag : Byte) (s : State) : Host.Outcome State Fault Refusal :=
  .next (s.request fun s => s.requestDisconnect tag)

/-- R127: AUX_CLOSE. -/
def execAuxClose (tag : Byte) (s : State) : Host.Outcome State Fault Refusal :=
  .next (s.request fun s => s.requestAuxClose tag)

/-- R127: AUX_OPEN. -/
def execAuxOpen (tag : Byte) (s : State) : Host.Outcome State Fault Refusal :=
  .next (s.request fun s => s.requestAuxOpen tag)

/-- R130: ACK_TRIP. -/
def execAckTrip (tag kind field1 field2 : Byte) (s : State) : Host.Outcome State Fault Refusal :=
  .next (s.request fun s => s.requestAck tag kind field1 field2)

/-- R132: SUPERVISE. -/
def execSupervise (tag sequence : Byte) (s : State) : Host.Outcome State Fault Refusal :=
  .next (s.request fun s => s.requestSupervise tag sequence)

/-- R137: SLEEP. -/
def execSleep (tag : Byte) (s : State) : Host.Outcome State Fault Refusal :=
  .next (s.request fun s => (s.requestSleep tag).finish)

/-- R157: UPDATE_OPEN. -/
def execUpdateOpen (tag : Byte) (epoch : Epoch) (s : State) : Host.Outcome State Fault Refusal :=
  .next (s.request fun s => s.requestUpdateOpen tag epoch)

/-- R158: UPDATE_STAGE. -/
def execUpdateStage (tag table index : Byte) (record : Record) (s : State) : Host.Outcome State Fault Refusal :=
  .next (s.request fun s => s.requestStage tag table index record)

/-- R159: READ_RECORD. -/
def execReadRecord (tag table index source : Byte) (s : State) : Host.Outcome State Fault Refusal :=
  .next (s.request fun s => s.requestReadRecord tag table index source)

/-- R161: UPDATE_COMMIT. -/
def execUpdateCommit (tag : Byte) (word : BitVec 32) (s : State) : Host.Outcome State Fault Refusal :=
  .next (s.request fun s => s.requestCommit tag word)

/-- R165: UPDATE_ABORT. -/
def execUpdateAbort (tag : Byte) (s : State) : Host.Outcome State Fault Refusal :=
  .next (s.request fun s => s.requestUpdateAbort tag)

/-- R170: TAMPER_CLEAR. -/
def execTamperClear (tag : Byte) (s : State) : Host.Outcome State Fault Refusal :=
  .next (s.request fun s => s.requestTamperClear tag)

end Sys2Proof.Machine
end

