-- ==== Sys2Proof/Machine/ChainEvents.lean ====
section
/-! DEFINITION. The schedule and the chains (chapters 1 and 2): steps, frames from the nodes, timeouts and deadlines. -/

namespace Sys2Proof.Machine

/-- R6: the present step ends: its waiting claims are withdrawn, and in RUNNING the cursor advances. -/
def State.stepExpires (s : State) : State :=
  let s := (s.withdrawClaim .A .missed).withdrawClaim .B .missed
  (if s.cursor.state = .running then s.advance else s).finish

/-- R183: a byte arrives from upward at a Chain Port; a frame that ends with it joins the queue of commands as what it is taken
for (entry 39). `tenth` is how far into the present µs its last bit arrives (R3, R49; entry 11). -/
def State.receiveByte (s : State) (c : Chain) (tenth : Fin 10) (b : Byte) : State :=
  s.unlessHeld fun s =>
    let taken := Reception.take (s.port c).reception c ⟨s.time, tenth⟩ b
    { s.mapPort c fun p => { p with reception := taken.1 } with pending := s.pending ++ taken.2.toList }

/-- 11.1: ten bits arrive from upward at a Chain Port; what has no start and stop bit is no byte (entry 54). -/
def State.receiveLine (s : State) (c : Chain) (tenth : Fin 10) (bits : List Bool) : State :=
  match byteOfLine bits with
  | some b => s.receiveByte c tenth b
  | none => s

/-- R6: STEP_EXPIRY. -/
def execStepExpiry (s : State) : Host.Outcome State Fault Refusal :=
  .next (s.timed State.stepDue State.stepExpires)

/-- R17: SAMPLE_SET. -/
def execSampleSet (chain : Chain) (address : Byte) (payload : List Byte) (s : State) : Host.Outcome State Fault Refusal :=
  .next (s.unlessHeld fun s => (s.takeSampleSet chain address payload).finish)

/-- R18: SAMPLE_SET_CHECK_FAILED. -/
def execSampleSetCheckFailed (chain : Chain) (address : Byte) (s : State) : Host.Outcome State Fault Refusal :=
  .next (s.unlessHeld fun s => (s.takeFailedSet chain address).finish)

/-- R37, R39: ANSWER. -/
def execAnswer (chain : Chain) (tag : BitVec 4) (address : Byte) (data : List Byte) (start : Stamp) (s : State) : Host.Outcome State Fault Refusal :=
  .next (s.unlessHeld fun s => (s.takeAnswer chain tag address data start).finish)

/-- R37: ORDER_TIMEOUT. -/
def execOrderTimeout (chain : Chain) (s : State) : Host.Outcome State Fault Refusal :=
  .next (s.timed (State.timeoutDue · chain) fun s => (s.takeTimeout chain).finish)

/-- R38: BROADCAST_SETTLE. -/
def execBroadcastSettle (chain : Chain) (s : State) : Host.Outcome State Fault Refusal :=
  .next (s.timed (State.settleDue · chain) fun s => (s.takeSettle chain).finish)

/-- R42: ALERT. -/
def execAlert (chain : Chain) (address code : Byte) (s : State) : Host.Outcome State Fault Refusal :=
  .next (s.unlessHeld fun s => s.takeAlert chain address code)

/-- R20: TRIGGER_FRAME_END. -/
def execTriggerFrameEnd (chain : Chain) (s : State) : Host.Outcome State Fault Refusal :=
  .next (s.timed (State.triggerEndDue · chain) fun s => (s.endCollection chain .complete).finish)

/-- R20: COLLECTION_DEADLINE. -/
def execCollectionDeadline (chain : Chain) (s : State) : Host.Outcome State Fault Refusal :=
  .next (s.timed (State.deadlineDue · chain) fun s => (s.endCollection chain .deadline).finish)

/-- R22: WAITING_CLAIM_WITHDRAWAL. -/
def execWaitingClaimWithdrawal (chain : Chain) (s : State) : Host.Outcome State Fault Refusal :=
  .next (s.timed (State.withdrawalDue · chain) fun s => (s.withdrawClaim chain .missed).finish)

end Sys2Proof.Machine
end

