-- ==== Sys2Proof/Machine/PackEvents.lean ====
section
/-! DEFINITION. The current stream, the contactor drivers, the precharge timers and the supervision window (chapters 3, 6
and 7). -/

namespace Sys2Proof.Machine

/-- R102: a level at KFBn; the raw feedback follows it while the main oscillator runs. -/
def State.feedbackChanges (s : State) (k : ChannelId) (closed : Bool) : State :=
  let s := { s with pins := { s.pins with kfb := s.pins.kfb.set k closed } }
  s.unlessHeld fun s => if s.oscillator then s.takeRaw k closed else s

/-- R121: the precharge minimum expiry. -/
def State.minimumExpires (s : State) : State :=
  let s := s.setSequencer fun q => { q with minimumTaken := true }
  match s.shared with
  | some p => if p.endCount ≤ s.sequencer.goodWords then s.prechargeEndsWell else s
  | none => s

/-- R52: CURRENT_WORD. -/
def execCurrentWord (word : BitVec 32) (s : State) : Host.Outcome State Fault Refusal :=
  .next (s.unlessHeld fun s => s.takeWord word)

/-- R53: LOSS_TIMER_EXPIRY. -/
def execLossTimerExpiry (s : State) : Host.Outcome State Fault Refusal :=
  .next (s.timed State.lossDue State.loseStream)

/-- R107: PULL_IN_EXPIRY. -/
def execPullInExpiry (channel : ChannelId) (s : State) : Host.Outcome State Fault Refusal :=
  .next (s.timed (State.pullInDue · channel) fun s => s.pullInEnds channel)

/-- R108: DROPOUT_EXPIRY. -/
def execDropoutExpiry (channel : ChannelId) (s : State) : Host.Outcome State Fault Refusal :=
  .next (s.timed (State.dropoutDue · channel) fun s => s.dropoutEnds channel)

/-- R102: FEEDBACK_CHANGE. -/
def execFeedbackChange (channel : ChannelId) (closed : Bool) (s : State) : Host.Outcome State Fault Refusal :=
  .next (s.feedbackChanges channel closed)

/-- R102, R109: DEBOUNCE_EXPIRY. -/
def execDebounceExpiry (channel : ChannelId) (s : State) : Host.Outcome State Fault Refusal :=
  .next (s.timed (State.debounceDue · channel) fun s => s.debounceEnds channel)

/-- R103: SETTLE_EXPIRY. -/
def execSettleExpiry (channel : ChannelId) (s : State) : Host.Outcome State Fault Refusal :=
  .next (s.timed (State.channelSettleDue · channel) fun s => s.settleEnds channel)

/-- R106: HOLD_PWM_PERIOD. -/
def execHoldPwmPeriod (channel : ChannelId) (s : State) : Host.Outcome State Fault Refusal :=
  .next (s.timed (State.pwmDue · channel) fun s => s.pwmStep channel)

/-- R121: PRECHARGE_MINIMUM_EXPIRY. -/
def execPrechargeMinimumExpiry (s : State) : Host.Outcome State Fault Refusal :=
  .next (s.timed State.minimumDue State.minimumExpires)

/-- R121, R123: PRECHARGE_MAXIMUM_EXPIRY. -/
def execPrechargeMaximumExpiry (s : State) : Host.Outcome State Fault Refusal :=
  .next (s.timed State.maximumDue fun s => s.enterFailed .prechargeTimeout none)

/-- R133: SUPERVISION_EXPIRY. -/
def execSupervisionExpiry (s : State) : Host.Outcome State Fault Refusal :=
  .next (s.timed State.supervisionDue fun s => s.superviseFault .timeout)

end Sys2Proof.Machine
end

