-- ==== Sys2Proof/Machine/SleepEvents.lean ====
section
/-! DEFINITION. Deep sleep (chapter 8): the shut of the link, the patrol timer, the phases of a patrol and a wake, and the
wake inputs. -/

namespace Sys2Proof.Machine

/-- R144: the level at a wake input changes. -/
def State.wakeInputChanges (s : State) (i : WakeInput) (high : Bool) : State :=
  if s.pins.wake.get i = high then s
  else
    { s with pins := { s.pins with wake := s.pins.wake.set i high } }.unlessHeld fun s => s.wakeLevel i high

/-- R145: the next pulse. -/
def State.nextPulse (s : State) : State :=
  match s.sleepWork.pulseStart with
  | some last => s.startPulse last
  | none => s

/-- R139: SHUT_EXPIRY. -/
def execShutExpiry (s : State) : Host.Outcome State Fault Refusal :=
  .next (s.timed State.shutDue fun s => s.shutHostLink.finish)

/-- R142: PATROL_TIMER_EXPIRY. -/
def execPatrolTimerExpiry (s : State) : Host.Outcome State Fault Refusal :=
  .next (s.timed State.patrolDue State.beginPatrol)

/-- R143, R148: OSC_START_END. -/
def execOscStartEnd (s : State) : Host.Outcome State Fault Refusal :=
  .next (s.timed State.oscDue fun s => s.oscillatorReady.finish)

/-- R143, R148: NODE_WAKE_END. -/
def execNodeWakeEnd (s : State) : Host.Outcome State Fault Refusal :=
  .next (s.timed State.nodeWakeDue fun s => s.nodesReady.finish)

/-- R144: WAKE_INPUT_CHANGE. -/
def execWakeInputChange (input : WakeInput) (high : Bool) (s : State) : Host.Outcome State Fault Refusal :=
  .next (s.wakeInputChanges input high)

/-- R144: WAKE_FILTER_EXPIRY. -/
def execWakeFilterExpiry (input : WakeInput) (s : State) : Host.Outcome State Fault Refusal :=
  .next (s.timed (State.wakeFilterDue · input) fun s => s.wakeFiltered input)

/-- R145: SENSE_PULSE_START. -/
def execSensePulseStart (s : State) : Host.Outcome State Fault Refusal :=
  .next (s.timed State.pulseStartDue State.nextPulse)

/-- R145: SENSE_PULSE_SAMPLE. -/
def execSensePulseSample (s : State) : Host.Outcome State Fault Refusal :=
  .next (s.timed State.pulseSampleDue State.samplePulse)

end Sys2Proof.Machine
end

