-- ==== Sys2Proof/Machine/UpdateEvents.lean ====
section
/-! DEFINITION. The tamper and service inputs and the phases of an update (chapter 9). The phases of a commit end at any
instant up to their bound (entry 2). -/

namespace Sys2Proof.Machine

/-- R168: TAMP# changes level. -/
def State.tampChanges (s : State) (active : Bool) : State :=
  if s.pins.tamp = active then s
  else
    { s with pins := { s.pins with tamp := active } }.unlessHeld fun s =>
      { s with tampFilter := s.tampFilter.take active s.time }

/-- R168: SVC# changes level. -/
def State.svcChanges (s : State) (active : Bool) : State :=
  if s.pins.svc = active then s
  else
    { s with pins := { s.pins with svc := active } }.unlessHeld fun s =>
      { s with svcFilter := s.svcFilter.take active s.time }

/-- The update engine is in a state. -/
def State.updating (s : State) (u : UpdateState) : Bool := s.update.state == u

/-- R168: TAMP_INPUT_CHANGE. -/
def execTampInputChange (active : Bool) (s : State) : Host.Outcome State Fault Refusal :=
  .next (s.tampChanges active)

/-- R168, R169: TAMP_FILTER_EXPIRY. -/
def execTampFilterExpiry (s : State) : Host.Outcome State Fault Refusal :=
  .next (s.timed (fun s => s.tampFilter.due s.time) State.tampFiltered)

/-- R168: SVC_INPUT_CHANGE. -/
def execSvcInputChange (active : Bool) (s : State) : Host.Outcome State Fault Refusal :=
  .next (s.svcChanges active)

/-- R168: SVC_FILTER_EXPIRY. -/
def execSvcFilterExpiry (s : State) : Host.Outcome State Fault Refusal :=
  .next (s.timed (fun s => s.svcFilter.due s.time) fun s => { s with svcFilter := s.svcFilter.expire })

/-- R160: IDLE_EXPIRY. -/
def execIdleExpiry (s : State) : Host.Outcome State Fault Refusal :=
  .next (s.timed State.idleDue State.closeWindow)

/-- R162: VALIDATION_END. -/
def execValidationEnd (s : State) : Host.Outcome State Fault Refusal :=
  .next (s.timed (State.updating · .validating) State.endValidation)

/-- R163, R164: STORE_FAULT. -/
def execStoreFault (s : State) : Host.Outcome State Fault Refusal :=
  .next (s.unlessHeld State.takeStoreFault)

/-- R164: WRITING_END. -/
def execWritingEnd (programmed : Image) (s : State) : Host.Outcome State Fault Refusal :=
  .next (s.timed (State.updating · .writing) fun s => s.endWriting programmed)

/-- R164: READBACK_END. -/
def execReadbackEnd (s : State) : Host.Outcome State Fault Refusal :=
  .next (s.timed (State.updating · .verifying) fun s => s.endReadBack.finish)

end Sys2Proof.Machine
end

