-- ==== Sys2Proof/Machine/ResetEvents.lean ====
section
/-! DEFINITION. The resets and start-up (R2, R155, R181, R182). -/

namespace Sys2Proof.Machine

/-- R155: selection is running. -/
def State.selecting (s : State) : Bool := s.startup.isSome

/-- R181: RESET_EXPIRY. -/
def execResetExpiry (s : State) : Host.Outcome State Fault Refusal :=
  .next (s.timed State.resetExpiryDue State.requestReset)

/-- R2: POR. -/
def execPor (s : State) : Host.Outcome State Fault Refusal :=
  .next s.powerOn

/-- R182: RESET_LOW. -/
def execResetLow (s : State) : Host.Outcome State Fault Refusal :=
  .next s.resetGoesLow

/-- R182: PIN_RESET. -/
def execPinReset (s : State) : Host.Outcome State Fault Refusal :=
  .next (s.timed State.pinResetDue State.pinReset)

/-- R182: RESET_HIGH. -/
def execResetHigh (s : State) : Host.Outcome State Fault Refusal :=
  .next s.resetGoesHigh

/-- R155: STARTUP_SELECTION_END. -/
def execStartupSelectionEnd (s : State) : Host.Outcome State Fault Refusal :=
  .next (s.timed State.selecting fun s => s.endSelection.finish)

end Sys2Proof.Machine
end

