-- ==== Sys2Proof/Machine/Dispatch.lean ====
section
/-! DEFINITION. The meaning of every command: one arm for each. -/

namespace Sys2Proof.Machine

def exec (i : Instr) (s : State) : Host.Outcome State Fault Refusal :=
  match i with
  | .exchangeBegin => Sys2Proof.Machine.execExchangeBegin s
  | .exchangeEnd inbound => Sys2Proof.Machine.execExchangeEnd inbound s
  | .pass chain position order tag data => Sys2Proof.Machine.execPass chain position order tag data s
  | .status tag sect => Sys2Proof.Machine.execStatus tag sect s
  | .bridgeReset tag => Sys2Proof.Machine.execBridgeReset tag s
  | .resetExpiry => Sys2Proof.Machine.execResetExpiry s
  | .chainStopDrain tag chain => Sys2Proof.Machine.execChainStopDrain tag chain s
  | .chainStopAbort tag chain => Sys2Proof.Machine.execChainStopAbort tag chain s
  | .chainStart tag chain => Sys2Proof.Machine.execChainStart tag chain s
  | .survey tag chain => Sys2Proof.Machine.execSurvey tag chain s
  | .readRound tag round => Sys2Proof.Machine.execReadRound tag round s
  | .captureNow tag => Sys2Proof.Machine.execCaptureNow tag s
  | .readCapture tag id part index => Sys2Proof.Machine.execReadCapture tag id part index s
  | .releaseCapture tag id => Sys2Proof.Machine.execReleaseCapture tag id s
  | .connect tag => Sys2Proof.Machine.execConnect tag s
  | .disconnect tag => Sys2Proof.Machine.execDisconnect tag s
  | .auxClose tag => Sys2Proof.Machine.execAuxClose tag s
  | .auxOpen tag => Sys2Proof.Machine.execAuxOpen tag s
  | .ackTrip tag kind field1 field2 => Sys2Proof.Machine.execAckTrip tag kind field1 field2 s
  | .supervise tag sequence => Sys2Proof.Machine.execSupervise tag sequence s
  | .sleep tag => Sys2Proof.Machine.execSleep tag s
  | .updateOpen tag epoch => Sys2Proof.Machine.execUpdateOpen tag epoch s
  | .updateStage tag table index record => Sys2Proof.Machine.execUpdateStage tag table index record s
  | .readRecord tag table index source => Sys2Proof.Machine.execReadRecord tag table index source s
  | .updateCommit tag word => Sys2Proof.Machine.execUpdateCommit tag word s
  | .updateAbort tag => Sys2Proof.Machine.execUpdateAbort tag s
  | .tamperClear tag => Sys2Proof.Machine.execTamperClear tag s
  | .stepExpiry => Sys2Proof.Machine.execStepExpiry s
  | .sampleSet chain address payload => Sys2Proof.Machine.execSampleSet chain address payload s
  | .sampleSetCheckFailed chain address => Sys2Proof.Machine.execSampleSetCheckFailed chain address s
  | .answer chain tag address data start => Sys2Proof.Machine.execAnswer chain tag address data start s
  | .orderTimeout chain => Sys2Proof.Machine.execOrderTimeout chain s
  | .broadcastSettle chain => Sys2Proof.Machine.execBroadcastSettle chain s
  | .alert chain address code => Sys2Proof.Machine.execAlert chain address code s
  | .triggerFrameEnd chain => Sys2Proof.Machine.execTriggerFrameEnd chain s
  | .collectionDeadline chain => Sys2Proof.Machine.execCollectionDeadline chain s
  | .currentWord word => Sys2Proof.Machine.execCurrentWord word s
  | .lossTimerExpiry => Sys2Proof.Machine.execLossTimerExpiry s
  | .pullInExpiry channel => Sys2Proof.Machine.execPullInExpiry channel s
  | .dropoutExpiry channel => Sys2Proof.Machine.execDropoutExpiry channel s
  | .feedbackChange channel closed => Sys2Proof.Machine.execFeedbackChange channel closed s
  | .debounceExpiry channel => Sys2Proof.Machine.execDebounceExpiry channel s
  | .settleExpiry channel => Sys2Proof.Machine.execSettleExpiry channel s
  | .holdPwmPeriod channel => Sys2Proof.Machine.execHoldPwmPeriod channel s
  | .prechargeMinimumExpiry => Sys2Proof.Machine.execPrechargeMinimumExpiry s
  | .prechargeMaximumExpiry => Sys2Proof.Machine.execPrechargeMaximumExpiry s
  | .supervisionExpiry => Sys2Proof.Machine.execSupervisionExpiry s
  | .shutExpiry => Sys2Proof.Machine.execShutExpiry s
  | .patrolTimerExpiry => Sys2Proof.Machine.execPatrolTimerExpiry s
  | .oscStartEnd => Sys2Proof.Machine.execOscStartEnd s
  | .nodeWakeEnd => Sys2Proof.Machine.execNodeWakeEnd s
  | .wakeInputChange input high => Sys2Proof.Machine.execWakeInputChange input high s
  | .wakeFilterExpiry input => Sys2Proof.Machine.execWakeFilterExpiry input s
  | .sensePulseStart => Sys2Proof.Machine.execSensePulseStart s
  | .sensePulseSample => Sys2Proof.Machine.execSensePulseSample s
  | .tampInputChange active => Sys2Proof.Machine.execTampInputChange active s
  | .tampFilterExpiry => Sys2Proof.Machine.execTampFilterExpiry s
  | .svcInputChange active => Sys2Proof.Machine.execSvcInputChange active s
  | .svcFilterExpiry => Sys2Proof.Machine.execSvcFilterExpiry s
  | .idleExpiry => Sys2Proof.Machine.execIdleExpiry s
  | .validationEnd => Sys2Proof.Machine.execValidationEnd s
  | .storeFault => Sys2Proof.Machine.execStoreFault s
  | .writingEnd programmed => Sys2Proof.Machine.execWritingEnd programmed s
  | .readbackEnd => Sys2Proof.Machine.execReadbackEnd s
  | .por => Sys2Proof.Machine.execPor s
  | .resetLow => Sys2Proof.Machine.execResetLow s
  | .pinReset => Sys2Proof.Machine.execPinReset s
  | .resetHigh => Sys2Proof.Machine.execResetHigh s
  | .startupSelectionEnd => Sys2Proof.Machine.execStartupSelectionEnd s
  | .waitingClaimWithdrawal chain => Sys2Proof.Machine.execWaitingClaimWithdrawal chain s

end Sys2Proof.Machine
end

