-- ==== Sys2Proof/Safety.lean ====
section
/-! DEFINITION. The predicates the statements are about: the invariants of every step, and the conditions under which a
command has its effect. -/

namespace Sys2Proof.Machine

/-! ### Invariants -/

/-- R131: the window is armed exactly while at least one channel is not OPEN. -/
def State.windowFollows (s : State) : Prop := s.window.armed = !s.allOpen

/-- R117: the Sequencer is IDLE only while all four channels are OPEN. -/
def State.idleIsOpen (s : State) : Prop := s.sequencer.state = .idle → ∀ k, (s.channel k).state = .opened

/-- The coil drive that a channel state calls for (6.3): in HOLD that of the PWM period. -/
def ChannelState.drivenBy : ChannelState → Drive → Prop
  | .opened, d => d = .off
  | .dropout, d => d = .off
  | .pullIn, d => d = ⟨true, none⟩
  | .hold, _ => True

/-- 6.3: the drive of each channel is the one its state calls for. -/
def State.drivesFollow (s : State) : Prop := ∀ k, (s.channel k).state.drivenBy (s.drives.get k)

/-- R175, R177: at most 4 answers are owed and at most 12 unsolicited frames wait. -/
def State.queueBounded (s : State) : Prop := s.link.owed ≤ 4 ∧ s.link.unsolicited ≤ 12

/-- R52: the history holds at most 256 words. -/
def State.historyBounded (s : State) : Prop := s.stream.history.length ≤ 256

/-- R88: at most 3 captures exist. -/
def State.capturesBounded (s : State) : Prop := s.captures.list.length ≤ 3

/-- R83: no two records of the ring carry one number. -/
def State.ringDistinct (s : State) : Prop := (s.ring.map RoundRecord.number).Nodup

/-- An update is being assembled, checked, written or read back. -/
def UpdateState.working : UpdateState → Bool
  | .opened | .validating | .writing | .verifying => true
  | .closed | .applyPending => false

/-- R156, R157, R169: nothing is staged in CLOSED and APPLY_PENDING; in the other states one epoch is, above the floor,
and the tamper latch is clear. -/
def State.updateSound (s : State) : Prop :=
  if s.update.state.working = true then
    s.update.latch = false ∧ ∃ e, s.update.stagedEpoch = some e ∧ s.store.floor < e
  else s.update.staging = none ∧ s.update.stagedEpoch = none

/-- R182: while a pin reset holds the blocks, the link is SHUT, the bridge UNCONFIGURED, and an exchange in progress one of a
SHUT link. -/
def State.heldIsShut (s : State) : Prop :=
  s.held = true → s.link.state = .shut ∧ s.sleep.op = .unconfigured ∧ ∀ e, s.link.exchange = some e → e.kind = .shut

/-! ### The link takes a request (R175) -/

/-- The blocks are not held in reset, the link is OPEN and fewer than 4 answers are owed. -/
def State.linkReady (s : State) : Prop := s.held = false ∧ s.link.state = .opened ∧ s.link.owed < 4

/-- A good frame has been taken: one answer more is owed, the inbound flags are clear and HWAKE is low. -/
def State.taken (s : State) : State :=
  { s with
    link := { s.link with lastDiscarded := false, lastCheckFailed := false, hwake := false, owed := s.link.owed + 1 } }

/-- A frame stands at the tail of the outbound queue. -/
def State.queued (s : State) (f : Outbound) : State := { s with link := { s.link with queue := s.link.queue ++ [⟨f, false⟩] } }

/-- A request has been taken and answered at once. -/
def State.answered (s : State) (tag : Byte) (status : ReplyStatus) (result : ResultData) : State :=
  s.taken.queued (.reply tag status result)

end Sys2Proof.Machine
end

