-- ==== Sys2Proof/Certificates/Slice0/Obligations.lean ====
section
/-! DEFINITION. The statements for the provers. Equations between whole states are their own frame: what the right side
does not write stands as it did. -/

section

open Sys2Proof Sys2Proof.Machine

/-! ### The machine -/

/-- The command at the front of the queue acts on the state with the queue's rest. -/
def Obligations.StepTakesFrontCommand : Prop :=
  ∀ (c : Instr) (rest : List Instr) (s : State),
    step { s with pending := c :: rest } = exec c { s with pending := rest }

/-- On an empty queue a microsecond passes, and the timer commands then due join the queue in some order; a pin reset
holds the Timebase. The model's choice (entries 1 and 2).
Which timer commands are due, one by one: the expiry that a state holds, once the Timebase reaches it; the expiry of RESETTING and of
CLOSING only while the exchange in progress has not clocked its final frame out whole (R139, R181); RESET# low for 10 µs. What a
microsecond changes: the Timebase, the count of RESET#, the microseconds left of the patrol timer. R1: an instant is later than another
when it is 1 to 2147483647 past it, modulo 2^32.
Which instants are raised when is the model's (entries 1, 2); the order in which those due join is free (entry 3). That the
WRITING_END raised carries the staged image is entry 10, and that an exchange has clocked out what it has sampled in whole bytes is
entry 53. -/
def Obligations.EmptyQueueTicks : Prop :=
  (∀ s : State, s.pending = [] →
     (s.held = true → step s = .next s) ∧
     (s.held = false → ∃ order : List Instr, order.Perm s.passMicrosecond.dueEvents ∧
       s.passMicrosecond.time = s.time + 1#32 ∧
       step s = .next { s.passMicrosecond with pending := order, free := s.free + order.length })) ∧
  (∀ (s : State) (i : Instr) (on : Option Instant → Prop) (part : Chain → (ChainPart → Instant → Prop) → Prop),
    on = (fun d => ∃ x, d = some x ∧ reached x s.time = true) →
    part = (fun c due => ∃ r p a, s.collectingRound c = some r ∧ r.part c = some p ∧ p.actual = some a ∧ due p a) →
    (i ∈ s.dueEvents ↔ match i with
      | .resetExpiry => s.link.state = .resetting ∧ on s.link.resetExpiry ∧ s.finalClocked = false
      | .stepExpiry => reached s.stepEnd s.time = true ∧ (s.cursor.state = .running ∨
          s.cursor.state = .stopping ∧ ∃ c, s.claimWaits c = true)
      | .orderTimeout c => ∃ o tag ended due, (s.port c).transaction = some (.order o tag ended due) ∧
          reached due s.time = true
      | .broadcastSettle c => ∃ o settle, (s.port c).transaction = some (.broadcast o settle) ∧
          reached settle s.time = true
      | .triggerFrameEnd c => part c fun p a => p.readings = [] ∧ reached (a + 40#32) s.time = true
      | .collectionDeadline c => part c fun _ a => reached (a + micros (s.windowOf c)) s.time = true
      | .waitingClaimWithdrawal c => ∃ r, (s.pendingRound = some r ∨ s.pendingRound = none ∧ s.waitingRound c = some r) ∧
          r.waitsFor c = true ∧ (r.step = .wake ∨ r.step = .patrol) ∧
          reached (r.planned + micros (s.windowOf c)) s.time = true
      | .lossTimerExpiry => s.stream.state = .live ∧ on s.stream.lossExpiry
      | .pullInExpiry k => (s.channel k).state = .pullIn ∧ on (s.channel k).phaseExpiry
      | .dropoutExpiry k => (s.channel k).state = .dropout ∧ on (s.channel k).phaseExpiry
      | .debounceExpiry k => on (s.channel k).debounceExpiry
      | .settleExpiry k => on (s.channel k).settleExpiry
      | .holdPwmPeriod k => (s.channel k).state = .hold ∧ ∃ p, (s.drives.get k).pwm = some p ∧
          (reached (p.start + micros p.period) s.time = true ∨
            (s.drives.get k).on = true ∧ p.onTime < p.period ∧ reached (p.start + micros p.onTime) s.time = true)
      | .prechargeMinimumExpiry => s.sequencer.state = .precharging ∧ s.sequencer.minimumTaken = false ∧
          on s.sequencer.minimumExpiry
      | .prechargeMaximumExpiry => s.sequencer.state = .precharging ∧ on s.sequencer.maximumExpiry
      | .supervisionExpiry => s.window.armed = true ∧ on s.window.expiry
      | .shutExpiry => s.link.state = .closing ∧ on s.sleep.shutExpiry ∧ s.finalClocked = false
      | .patrolTimerExpiry => s.sleep.op = .asleep ∧ ∃ next, s.sleep.patrolTimer = some ⟨next, 0⟩
      | .oscStartEnd => s.sleep.phase = some .oscStart ∧ on s.sleepWork.phaseExpiry
      | .nodeWakeEnd => s.sleep.phase = some .nodeWake ∧ on s.sleepWork.phaseExpiry
      | .wakeFilterExpiry n => on (s.sleep.trackers.get n).pendingExpiry
      | .sensePulseStart => s.sleepWork.senseOut = false ∧ ∃ x, s.sleepWork.pulseStart = some x ∧
          reached (x + micros s.pulsePeriod) s.time = true
      | .sensePulseSample => s.sleepWork.senseOut = true ∧ ∃ x, s.sleepWork.pulseStart = some x ∧
          reached (x + micros s.pulseOn) s.time = true
      | .tampFilterExpiry => on s.tampFilter.pendingExpiry
      | .svcFilterExpiry => on s.svcFilter.pendingExpiry
      | .idleExpiry => s.update.state = .opened ∧ on s.update.idleExpiry
      | .validationEnd => s.update.state = .validating ∧ on s.commit.bound
      | .writingEnd image => s.update.state = .writing ∧ on s.commit.bound ∧
          image = s.update.staging.getD ⟨[], [], [], [], [], [], [], [], []⟩
      | .readbackEnd => s.update.state = .verifying ∧ on s.commit.bound
      | .pinReset => ∃ n, s.pins.reset = .low n ∧ 10 ≤ n
      | .startupSelectionEnd => on s.startup
      | _ => False) ∧
    s.passMicrosecond = { s with
      time := s.time + 1#32
      pins := { s.pins with reset := match s.pins.reset with | .low n => .low (min (n + 1) 10) | level => level }
      sleep := { s.sleep with patrolTimer := s.sleep.patrolTimer.map fun t => ⟨t.next, t.left - 1⟩ } } ∧
    (s.finalClocked = true ↔ ∃ e q, s.link.exchange = some e ∧ e.kind = .live ∧ e.frame = some q ∧ q.final = true ∧
      q.frame.bytes.length + 1 ≤ e.bits.length / 8)) ∧
  (∀ (x y : Instant) (n : Nat), (later x y = true ↔ 1 ≤ (x - y).toNat ∧ (x - y).toNat ≤ 2147483647) ∧
    (reached x y = true ↔ later x y = false) ∧ instantDiff x y = (x - y).toInt ∧ micros n = BitVec.ofNat 32 n ∧
    millis n = BitVec.ofNat 32 (n * 1000))

/-- A selection of the values the manual gives the blocks at a power-on reset. The count is 0 (R2), the cursor STOPPED with its items 0
(R5), the round counter 0 (R12); no image works (R152) and the ring is empty (R81); the stream is ABSENT with no history (R52, R53);
there is no capture, the next id is 1 and no refusal is kept (R88); the inhibit set is empty (R129) and the window disarmed (R131); of
the Sequencer the state, the good-word count, the trip cause and disconnect pending (R117); of the Sleep Controller the operating state
alone (R135); of the Update Engine the state and the staging area (R156); the link is SHUT (R171), its queue empty and HWAKE low (R179).
Of each channel the state, the drive, the debounced feedback, the three flags and the settle expiry (R101, R103). Of each chain the run
state (R43), nothing in flight and the marker (R34), the tag counter (R24), the survey state (R47) and an empty table (R26).
That no command waits is the model's own.
The invariants of every step, of ChannelInvariantsHold, UpdateStaysSound and BoundsAndSetsHold, hold right after reset. -/
def Obligations.ResetValues : Prop :=
  (let s := State.reset
   s.time = 0#32 ∧ s.cursor = ⟨.stopped, 0, 0#32, 0#32⟩ ∧ s.roundCounter = 0#16 ∧ s.working = none ∧ s.ring = [] ∧
   s.stream.state = .absent ∧ s.stream.history = [] ∧ s.captures.list = [] ∧ s.captures.nextId = 1#8 ∧
   s.captures.lastRefusal = none ∧ s.inhibit = [] ∧ s.window.armed = false ∧ s.sequencer.state = .idle ∧
   s.sequencer.goodWords = 0 ∧ s.sequencer.tripCause = none ∧ s.sequencer.disconnectPending = false ∧
   s.sleep.op = .unconfigured ∧ s.update.state = .closed ∧ s.update.staging = none ∧ s.link.state = .shut ∧
   s.link.queue = [] ∧ s.link.hwake = false ∧ s.pending = [] ∧
   (∀ k, (s.channel k).state = .opened ∧ s.drives.get k = .off ∧ (s.channel k).debouncedClosed = false ∧
     (s.channel k).stuck = false ∧ (s.channel k).dropped = false ∧ (s.channel k).welded = false ∧
     (s.channel k).settleExpiry = some 200000#32) ∧
   (∀ c, (s.port c).run = .running ∧ (s.port c).transaction = none ∧ (s.port c).tagCounter = 0#4 ∧
     (s.port c).marker = .forward ∧ (s.port c).survey = .idle ∧ (s.port c).table = [])) ∧
  (State.reset.windowFollows ∧ State.reset.idleIsOpen ∧ State.reset.drivesFollow ∧ State.reset.inhibit.Nodup ∧
   State.reset.updateSound ∧ State.reset.queueBounded ∧ State.reset.historyBounded ∧ State.reset.capturesBounded ∧
   State.reset.ringDistinct ∧ State.reset.heldIsShut)

/-! ### Invariants of every step -/

/-- 6.3, R117, R131: every step keeps the window armed exactly while a channel is not OPEN, the Sequencer IDLE only while all four
channels are OPEN, and the drive of every channel off in OPEN and DROPOUT and fully on in PULL_IN. -/
def Obligations.ChannelInvariantsHold : Prop :=
  (∀ s t : State, s.windowFollows → step s = .next t → t.windowFollows) ∧
  (∀ s t : State, s.idleIsOpen → step s = .next t → t.idleIsOpen) ∧
  (∀ s t : State, s.drivesFollow → step s = .next t → t.drivesFollow)

/-- R129: while a cause stands in the reclose inhibit set, no step takes a channel out of OPEN. -/
def Obligations.NoChannelClosesWhileInhibited : Prop :=
  ∀ (s t : State) (k : ChannelId), s.inhibit ≠ [] → (s.channel k).state = .opened → step s = .next t →
    (t.channel k).state = .opened

/-- R153, R156, R157, R164, R169: every step keeps the update sound (a staged epoch above the floor and a clear tamper latch
while an update is under way, and nothing staged otherwise), and from a sound state no step lowers the epoch floor. -/
def Obligations.UpdateStaysSound : Prop :=
  ∀ s t : State, s.updateSound → step s = .next t → t.updateSound ∧ s.store.floor ≤ t.store.floor

/-- R52, R83, R88, R129, R175, R177: every step keeps the bounds of the history, the captures, the answers owed and the
unsolicited frames, the round numbers of the ring distinct, and the reclose inhibit set without duplicates.
R171, R182: every step keeps that the link of blocks that a pin reset holds is SHUT and the bridge UNCONFIGURED. -/
def Obligations.BoundsAndSetsHold : Prop :=
  (∀ s t : State, s.queueBounded → step s = .next t → t.queueBounded) ∧
  (∀ s t : State, s.historyBounded ∧ s.capturesBounded → step s = .next t → t.historyBounded ∧ t.capturesBounded) ∧
  (∀ s t : State, s.ringDistinct → step s = .next t → t.ringDistinct) ∧
  (∀ s t : State, s.inhibit.Nodup → step s = .next t → t.inhibit.Nodup) ∧
  (∀ s t : State, s.heldIsShut → step s = .next t → t.heldIsShut)

/-! ### Host Link -/

/-- R176, R184, R185: the bytes that carry a request, whatever follows them in the exchange, are read as that request with
every operand.
R23, R183: a Chain Port that hunts discards what comes before a delimiter; a frame of an upward kind with its right check word then
joins the queue of commands as what it is, with every field, and the port hunts again. A frame with a wrong check word, and one that
ends at its length byte because its kind is not upward or its length too great, is discarded, but for a SAMPLE SET, which is one that
fails its check. That the bytes come to the queue in this way is the model's (entry 39), as is the code of an ALERT that carries
none (entry 9).
R184, R185: the bytes of every request, 11.2.3's table row by row, with the CRC-16 of R184 spelled and its check value.
R3, R183: the delimiter's start instant, the start of its start bit, stays with the frame, and the ANSWER that its last byte brings
carries it: the bytes arrive 5 µs after they began, in a tenth of a microsecond that is free to the sender. The bits of a byte on the
chain line: the start bit, the eight bits with the lowest first, the stop bit; their levels, and that ten bits without them are no byte,
are the model's (entry 54, PRESUMED). -/
def Obligations.ReceivedFramesAreRead : Prop :=
  ((∀ (i : Instr) (bytes extra : List Byte), i.wf = true → encodeInbound i = some bytes →
     decodeInbound (bytes ++ extra) = .request i) ∧
   (∀ (s : State) (c : Chain) (tenth : Fin 10) (noise payload : List Byte) (tag : BitVec 4) (address : Byte)
       (receive : List Byte → State) (joining : List Instr → State), s.held = false → (s.port c).reception = .hunting →
     0xA5#8 ∉ noise → joining = (fun l => { s with pending := s.pending ++ l }) →
     receive = (fun bytes => (noise ++ 0xA5#8 :: bytes).foldl (fun s b => s.receiveByte c tenth b) s) →
     noise.foldl (fun s b => s.receiveByte c tenth b) s = s ∧
     (payload.length ≤ 64 → receive (chainFrame 8#8 tag address payload) =
       joining [.answer c tag address payload ⟨s.time - 5#32, tenth⟩]) ∧
     (payload.length ≤ 44 → receive (chainFrame 9#8 tag address payload) = joining [.sampleSet c address payload]) ∧
     (∀ code, receive (chainFrame 10#8 tag address [code]) = joining [.alert c address code]) ∧
     (∃ code, receive (chainFrame 10#8 tag address []) = joining [.alert c address code]) ∧
     (∀ (k l : Byte) (greatest : Nat) (check : BitVec 16), upwardGreatest (k >>> 4).toNat = some greatest →
       (payload.length ≤ greatest → check ≠ crc16 (k :: address :: byteOfNat payload.length :: payload) →
         receive (k :: address :: byteOfNat payload.length :: (payload ++ bytes16 check)) =
           joining (if k >>> 4 = 9#8 then [.sampleSetCheckFailed c address] else [])) ∧
       (greatest < l.toNat → receive [k, address, l] =
         joining (if k >>> 4 = 9#8 then [.sampleSetCheckFailed c address] else []))) ∧
     (∀ k l : Byte, upwardGreatest (k >>> 4).toNat = none → receive [k, address, l] = s) ∧
     (∀ n, upwardGreatest n = if n = 8 then some 64 else if n = 9 then some 44 else if n = 10 then some 1 else none))) ∧
  (∀ (frame : Byte → List Byte → List Byte) (t a b c : Byte) (data : List Byte) (n : RoundNumber) (w : BitVec 32),
    frame = (fun kind payload => kind :: bytes16 (BitVec.ofNat 16 payload.length) ++ payload ++
      bytes16 (crc16 (kind :: bytes16 (BitVec.ofNat 16 payload.length) ++ payload))) →
    encodeInbound (.pass a b c t data) = some (frame 2#8 (a :: b :: c :: t :: data)) ∧
    encodeInbound (.status t a) = some (frame 1#8 [0x01#8, t, a]) ∧
    encodeInbound (.bridgeReset t) = some (frame 1#8 [0x02#8, t]) ∧
    encodeInbound (.chainStopDrain t a) = some (frame 1#8 [0x03#8, t, a, 0x01#8]) ∧
    encodeInbound (.chainStopAbort t a) = some (frame 1#8 [0x03#8, t, a, 0x02#8]) ∧
    encodeInbound (.chainStart t a) = some (frame 1#8 [0x04#8, t, a]) ∧
    encodeInbound (.survey t a) = some (frame 1#8 [0x05#8, t, a]) ∧
    encodeInbound (.readRound t n) = some (frame 1#8 ([0x06#8, t] ++ bytes16 n)) ∧
    encodeInbound (.captureNow t) = some (frame 1#8 [0x07#8, t]) ∧
    encodeInbound (.readCapture t a b c) = some (frame 1#8 [0x08#8, t, a, b, c]) ∧
    encodeInbound (.releaseCapture t a) = some (frame 1#8 [0x09#8, t, a]) ∧
    encodeInbound (.connect t) = some (frame 1#8 [0x0A#8, t]) ∧
    encodeInbound (.disconnect t) = some (frame 1#8 [0x0B#8, t]) ∧
    encodeInbound (.auxClose t) = some (frame 1#8 [0x0C#8, t]) ∧
    encodeInbound (.auxOpen t) = some (frame 1#8 [0x0D#8, t]) ∧
    encodeInbound (.ackTrip t a b c) = some (frame 1#8 [0x0E#8, t, a, b, c]) ∧
    encodeInbound (.supervise t a) = some (frame 1#8 [0x0F#8, t, a]) ∧
    encodeInbound (.sleep t) = some (frame 1#8 [0x10#8, t]) ∧
    encodeInbound (.updateOpen t w) = some (frame 1#8 ([0x11#8, t] ++ bytes32 w)) ∧
    encodeInbound (.updateStage t a b data) = some (frame 1#8 (0x12#8 :: t :: a :: b :: data)) ∧
    encodeInbound (.readRecord t a b c) = some (frame 1#8 [0x13#8, t, a, b, c]) ∧
    encodeInbound (.updateCommit t w) = some (frame 1#8 ([0x14#8, t] ++ bytes32 w)) ∧
    encodeInbound (.updateAbort t) = some (frame 1#8 [0x15#8, t]) ∧
    encodeInbound (.tamperClear t) = some (frame 1#8 [0x16#8, t])) ∧
  (∀ (crc : List Byte → BitVec 16) (bit : BitVec 16 → BitVec 16) (x : BitVec 16) (y : BitVec 32) (bytes : List Byte),
    bit = (fun c => if c.msb then (c <<< 1) ^^^ 0x1021#16 else c <<< 1) →
    crc = (fun l : List Byte => l.foldl (fun (c : BitVec 16) (b : Byte) =>
      bit (bit (bit (bit (bit (bit (bit (bit (c ^^^ (b.zeroExtend 16 <<< 8)))))))))) 0xFFFF#16) →
    crc16 bytes = crc bytes ∧
    crc16 [0x31#8, 0x32#8, 0x33#8, 0x34#8, 0x35#8, 0x36#8, 0x37#8, 0x38#8, 0x39#8] = 0x29B1#16 ∧
    bytes16 x = [(x >>> 8).truncate 8, x.truncate 8] ∧
    bytes32 y = [(y >>> 24).truncate 8, (y >>> 16).truncate 8, (y >>> 8).truncate 8, y.truncate 8]) ∧
  (∀ (s : State) (c : Chain) (tenth : Fin 10) (b : Byte) (start : Stamp) (frame : List Byte), s.held = false →
    ((s.port c).reception = .hunting → s.receiveByte c tenth 0xA5#8 = s.setPort c { s.port c with
      reception := .frame ⟨s.time - 5#32, tenth⟩ [] }) ∧
    ((s.port c).reception = .frame start frame → frameEnds (frame ++ [b]) = false → s.receiveByte c tenth b =
      s.setPort c { s.port c with reception := .frame start (frame ++ [b]) }) ∧
    (∀ (tag : BitVec 4) (address : Byte) (payload : List Byte), payload.length ≤ 64 →
      frame ++ [b] = chainFrame 8#8 tag address payload → (s.port c).reception = .frame start frame →
      s.receiveByte c tenth b = { s.setPort c { s.port c with reception := .hunting } with
        pending := s.pending ++ [.answer c tag address payload start] })) ∧
  (∀ (kind : Byte) (tag : BitVec 4) (address : Byte) (payload body : List Byte),
    body = (kind <<< 4 ||| tag.zeroExtend 8) :: address :: BitVec.ofNat 8 payload.length :: payload →
    chainFrame kind tag address payload = body ++ bytes16 (crc16 body)) ∧
  (∀ (s : State) (c : Chain) (tenth : Fin 10) (b : Byte) (bits : List Bool),
    lineBits b = false :: (List.range 8).map (fun n => b.getLsbD n) ++ [true] ∧
    s.receiveLine c tenth (lineBits b) = s.receiveByte c tenth b ∧
    (bits.length ≠ 10 ∨ bits.head? = some true ∨ bits.getLast? = some false → s.receiveLine c tenth bits = s) ∧
    s.downwardLine c = (s.downwardFrame c).map fun f => f.flatMap lineBits)

/-- R177: a frame joins the tail of the queue or is refused, by its class and the link state; a refused frame is lost and
sets the unsolicited-discard flag.
R139, R171, R175, R181: a request that finds 4 answers owed, or the link in CLOSING or RESETTING, is discarded, says so in
the next status byte and deasserts HWAKE; a SHUT link does not judge it, nor a block held in reset.
An answer offered to a SHUT link is lost as an unsolicited frame is, with the flag: the model's choice (entry 38).
Which frames are answers, what is counted, and what each kind of offer offers; a notice that a sleep state withholds. -/
def Obligations.FramesAreRefusedOrDiscarded : Prop :=
  ((∀ (s : State) (f : Outbound),
      (f.isAnswer = true → s.link.state ≠ .shut → s.offer f = s.queued f) ∧
      (f.isAnswer = false → s.link.state = .opened ∨ s.link.state = .resetting →
        s.offer f =
          if s.link.unsolicited < 12 then s.queued f else { s with link := { s.link with unsolicitedDiscard := true } }) ∧
      (f.isAnswer = false → s.link.state = .closing ∨ s.link.state = .shut →
        s.offer f = { s with link := { s.link with unsolicitedDiscard := true } })) ∧
   (∀ (s : State) (i : Instr), i.isRequest = true →
      (s.held = false → (s.link.state = .opened ∧ 4 ≤ s.link.owed) ∨ s.link.state = .closing ∨ s.link.state = .resetting →
        exec i s = .next { s with
          link := { s.link with lastDiscarded := true, lastCheckFailed := false, hwake := false } }) ∧
      (s.link.state = .shut ∨ s.held = true → exec i s = .next s))) ∧
  (∀ (s : State) (f : Outbound) (tag : Byte) (status : ReplyStatus) (result : ResultData) (n : Notice) (c : Chain)
      (position : Nat) (late : Bool) (data : List Byte) (r : RoundRecord),
    (s.link.state = .shut → s.offer f = { s with link := { s.link with unsolicitedDiscard := true } }) ∧
    (f.isAnswer = true ↔ (∃ tag status result, f = .reply tag status result) ∨
      ∃ tag c position data, f = .relay tag c position false data) ∧
    s.link.answers = (s.link.queue.filter fun q => q.frame.isAnswer).length ∧
    s.link.unsolicited = (s.link.queue.filter fun q => !q.frame.isAnswer).length ∧
    s.reply tag status result = s.offer (.reply tag status result) ∧ s.notify n = s.offer (.notice n) ∧
    s.relay c tag position late data = s.offer (.relay tag c position late data) ∧
    (s.record r.number = some r → s.reportRound r.number = s.offer (.roundReport r)) ∧
    (s.sleep.op = .run ∨ s.sleep.op = .unconfigured ∨ s.sleep.op = .waking → s.notifyAwake n = s.notify n) ∧
    (s.sleep.op = .entering ∨ s.sleep.op = .asleep ∨ s.sleep.op = .patrol → s.notifyAwake n = s))

/-- R172, R146: HSEL# goes low. A link that is not SHUT latches its status byte and its head frame for the exchange. A SHUT
link shifts FFh, and the select is latched as a wake cause in a sleep state, which ends ASLEEP at once.
R171, R173: what HSDO shifts while RESET# is high: FFh alone for an exchange begun in a SHUT link; else the latched status byte,
then the latched frame, or length 0000h where the queue was empty, then 00h.
R173: the link status byte of a link that is not SHUT: in bits 0 to 2 the credit, 4 less the answers owed; then last discarded, last
check failed, the tamper latch, wake causes pending, and bit 7 clear. R179: HATTN# is asserted exactly while the queue is not empty.
R172: HSDI is sampled on each rising edge of HSCK, HSDO changes on each falling one and shows its first bit from the fall of HSEL#, and the
bytes that the exchange has carried when HSEL# rises go to EXCHANGE_END, the most significant bit of each first; a last byte cut short is
dropped. A pair of edges of one direction has the effect of one. That EXCHANGE_END's operand comes in this way is entry 53.
R174, R184, 11.2.2, 11.3: the bytes of each outbound frame: kind, length, payload, check word, with the payload of each kind and the codes
of statuses, reasons and notices. The fields of a notice, and of the results 11.2 does not lay out, are free (entry 5). -/
def Obligations.ExchangeBegins : Prop :=
  ((∀ s : State, s.link.exchange = none →
      (s.link.state ≠ .shut → exec .exchangeBegin s =
        .next { s with link := { s.link with exchange := some ⟨.live, s.statusByte, s.link.queue.head?, [], false⟩ } }) ∧
      (s.link.state = .shut → s.sleep.op = .run ∨ s.sleep.op = .unconfigured → exec .exchangeBegin s =
        .next { s with link := { s.link with exchange := some ⟨.shut, 0xFF#8, none, [], false⟩ } }) ∧
      (s.link.state = .shut → s.sleep.op = .entering ∨ s.sleep.op = .patrol ∨ s.sleep.op = .waking →
        exec .exchangeBegin s = .next { s with
          link := { s.link with exchange := some ⟨.shut, 0xFF#8, none, [], false⟩ }
          sleep := { s.sleep with latched := { s.sleep.latched with hostSelect := true } } }) ∧
      (s.link.state = .shut → s.sleep.op = .asleep → exec .exchangeBegin s = .next { s with
        link := { s.link with exchange := some ⟨.shut, 0xFF#8, none, [], false⟩ }
        sleep := { s.sleep with
          latched := { s.sleep.latched with hostSelect := true }, op := .waking, phase := some .oscStart,
          patrolTimer := none }
        sleepWork := { s.sleepWork with
          phaseExpiry := some (s.time + 500#32), wakingSince := some s.time, awaiting := .both false,
          roused := .both false } })) ∧
   (∀ (s : State) (e : Exchange) (clocked : Nat), s.pins.reset = .high → s.link.exchange = some e →
     (e.kind = .shut → s.hsdo clocked = some (List.replicate clocked 0xFF#8)) ∧
     (e.kind ≠ .shut → s.hsdo clocked = some (((e.status ::
       (match e.frame with | some q => q.frame.bytes | none => [0#8, 0#8, 0#8])) ++ List.replicate clocked 0#8).take clocked)))) ∧
  (∀ s : State, (s.link.state = .shut → s.statusByte = 0xFF#8) ∧
    (s.link.state ≠ .shut →
      (s.statusByte &&& 7#8).toNat = 4 - s.link.owed ∧ s.statusByte.getLsbD 3 = s.link.lastDiscarded ∧
      s.statusByte.getLsbD 4 = s.link.lastCheckFailed ∧ s.statusByte.getLsbD 5 = s.update.latch ∧
      (s.statusByte.getLsbD 6 = true ↔
        (∃ q ∈ s.link.queue, ∃ r, q.frame = .notice (.woke r)) ∨ s.sleep.latched ≠ .empty) ∧
      s.statusByte.getLsbD 7 = false) ∧
    (s.attention = true ↔ s.link.queue ≠ [])) ∧
  (∀ (s : State) (e : Exchange) (now : Exchange → State) (n : Nat), s.link.exchange = some e →
    now = (fun x => { s with link := { s.link with exchange := some x } }) →
    n = (if e.clock = true then e.bits.length - 1 else e.bits.length) →
    (s.held = false → ∀ hsdi, (e.clock = false → s.clockRises hsdi = now { e with bits := e.bits ++ [hsdi], clock := true }) ∧
      (e.clock = true → s.clockRises hsdi = s)) ∧
    (s.held = false → s.clockFalls = now { e with clock := false }) ∧
    s.selectRises = { s with pending := s.pending ++ [.exchangeEnd (bytesOfBits e.bits)] } ∧
    (s.pins.reset = .high → ∃ bytes, s.hsdo (n / 8 + 1) = some bytes ∧
      s.hsdoBit = some ((bytes.getD (n / 8) 0#8).getMsbD (n % 8)))) ∧
  (∀ (bytes : List Byte) (extra : List Bool), extra.length < 8 →
    bytesOfBits ((bytes.flatMap fun b => (List.range 8).map fun n => b.getMsbD n) ++ extra) = bytes) ∧
  (∀ (f : Outbound) (payload : List Byte), payload = f.payload.take 2043 →
    f.bytes = f.kindCode :: bytes16 (BitVec.ofNat 16 payload.length) ++ payload ++
      bytes16 (crc16 (f.kindCode :: bytes16 (BitVec.ofNat 16 payload.length) ++ payload))) ∧
  (∀ (tag : Byte) (status : ReplyStatus) (result : ResultData) (c : Chain) (position : Nat) (late : Bool) (data : List Byte)
      (r : RoundRecord) (n : Notice),
    (Outbound.reply tag status result).kindCode = 1#8 ∧
    (Outbound.reply tag status result).payload = tag :: status.code :: result.bytes ∧
    (Outbound.relay tag c position late data).kindCode = 2#8 ∧
    (Outbound.relay tag c position late data).payload =
      tag :: (if c = .A then 0#8 else 1#8) :: BitVec.ofNat 8 position :: (if late then 1#8 else 0#8) :: data ∧
    (Outbound.roundReport r).kindCode = 3#8 ∧ (Outbound.roundReport r).payload = r.bytes ∧
    (Outbound.notice n).kindCode = 4#8 ∧ (Outbound.notice n).payload = n.code :: Config.noticeFields n) ∧
  ([ReplyStatus.done, .accepted, .busy, .refusedState, .badArgument, .locked, .noSuch, .noAnswer, .chainStopped].map
    ReplyStatus.code = [0#8, 1#8, 2#8, 3#8, 4#8, 5#8, 6#8, 7#8, 8#8]) ∧
  ((∀ r : Reason, r.bytes = match r with
    | .state => [1#8] | .inhibited => [2#8] | .current => [3#8] | .welded => [4#8] | .settle => [5#8]
    | .contactor => [6#8] | .sequencer => [7#8] | .update => [8#8] | .capture => [9#8] | .survey => [0x0A#8]
    | .pass => [0x0B#8] | .service => [0x0C#8] | .tamper => [0x0D#8] | .table => [0x0E#8] | .field o => [0x0F#8, o]
    | .steps t i => [0x10#8, t, i] | .width t i => [0x11#8, t, i] | .scope t i => [0x12#8, t, i]
    | .actionIndex t i => [0x13#8, t, i] | .roles t i => [0x14#8, t, i] | .window t i => [0x15#8, t, i]
    | .precharge t i => [0x16#8, t, i] | .check => [0x17#8]) ∧
   (∀ n : Notice, n.code = match n with
    | .trip .. => 1#8 | .release .. => 2#8 | .nodeLost .. => 3#8 | .nodeBack .. => 4#8 | .nodeUnaligned .. => 5#8
    | .alert .. => 6#8 | .surveyDone .. => 7#8 | .chainStopped .. => 8#8 | .currentLost .. => 9#8
    | .currentBack .. => 0x0A#8 | .contactor .. => 0x0B#8 | .sequence .. => 0x0C#8 | .supervisionFault .. => 0x0D#8
    | .supervisionLoss .. => 0x0E#8 | .captureDone .. => 0x0F#8 | .captureRefused .. => 0x10#8 | .commitDone .. => 0x11#8
    | .commitFailed .. => 0x12#8 | .windowClosed .. => 0x13#8 | .tamper .. => 0x14#8 | .woke .. => 0x15#8) ∧
   (∀ x : ResultData, x.bytes = match x with
    | .none => [] | .reason r => r.bytes | .round r => r.bytes | .roundPart i r => i :: r.bytes | .record r => r
    | other => Config.resultFields other))

/-- R87, R178: at the end of an exchange that carries no inbound frame, a head frame clocked out whole leaves the queue, an
answer lowers the answers owed, a ROUND REPORT sets the reported flag of its record; a frame not clocked out whole stays.
That an exchange in which no whole byte was clocked carries no inbound frame is the model's choice (entry 60). -/
def Obligations.ExchangeEndSettlesHead : Prop :=
  ∀ (s : State) (b : List Byte) (e : Exchange), s.link.exchange = some e → e.kind = .live → decodeInbound b = .none →
    (e.whole b.length = false → exec (.exchangeEnd b) s =
      .next { s with link := { s.link with exchange := none, lastDiscarded := false, lastCheckFailed := false } }) ∧
    (∀ q, e.frame = some q → q.final = false → e.whole b.length = true → exec (.exchangeEnd b) s =
      .next { s with
        link := { s.link with
          exchange := none, lastDiscarded := false, lastCheckFailed := false, queue := s.link.queue.drop 1
          owed := if q.frame.isAnswer then s.link.owed - 1 else s.link.owed }
        ring := match q.frame with
          | .roundReport r => s.ring.map fun x =>
              if x.number == r.number && x.planned == r.planned then { x with reported := true } else x
          | _ => s.ring })

/-- R172, R176: at the end of an exchange the outbound frame is settled first; the request that the inbound frame carries is
then taken as the command of that request is.
R139, R171, R174, R176: the inbound frames that carry no request: one that fails its check sets the check-failed flag; one
whose request is in no table is answered BAD_ARGUMENT; an exchange begun in a SHUT link judges nothing; and the exchange that has
carried out the last DONE of an entry to sleep shuts the link.
An exchange that spans the shut: its outbound frame is not settled and its inbound frame is judged and discarded; and one begun in a
SHUT link judges nothing even where the link has opened since: the model's choices (entry 29).
For every state that is not held: what EXCHANGE_END leaves after its outbound frame is settled, and then an inbound frame that is none,
fails, carries a request, or is a bad request, which a link with 4 answers owed, in CLOSING or RESETTING discards as it does a request.
In CLOSING, with the last frame clocked out whole, the inbound frame is judged and discarded and the link shuts.
R172, R176, R184: which bytes are no frame, which fail the check, and which are a request that is in no table or has a wrong length.
That an exchange in which no whole byte was clocked carries no inbound frame is the model's choice (entry 60). -/
def Obligations.ExchangeEndJudgesInbound : Prop :=
  ((∀ (s : State) (b : List Byte) (e : Exchange) (i : Instr), s.link.exchange = some e → e.kind = .live →
      decodeInbound b = .request i → e.clockedFinal b.length = false →
      (({ s with link := { s.link with exchange := none } } : State).settleExchange e b.length).linkReady →
      exec (.exchangeEnd b) s = exec i (({ s with link := { s.link with exchange := none } } : State).settleExchange e b.length)) ∧
   (∀ (s : State) (b : List Byte) (e : Exchange), s.link.exchange = some e →
      (e.kind = .shut → exec (.exchangeEnd b) s = .next { s with link := { s.link with exchange := none } }) ∧
      (e.kind = .live → e.whole b.length = false → decodeInbound b = .failed → exec (.exchangeEnd b) s =
        .next { s with link := { s.link with exchange := none, lastDiscarded := false, lastCheckFailed := true } }) ∧
      (∀ tag, e.kind = .live → e.whole b.length = false → decodeInbound b = .badRequest tag → s.linkReady →
        exec (.exchangeEnd b) s =
          .next (({ s with link := { s.link with exchange := none } } : State).answered tag .badArgument .none)) ∧
      (∀ q, e.kind = .live → e.frame = some q → q.final = true → e.whole b.length = true → decodeInbound b = .none →
        s.link.state = .closing → q.frame.isAnswer = true → exec (.exchangeEnd b) s =
          .next ({ s with
            link := { s.link with
              exchange := none, lastDiscarded := false, lastCheckFailed := false, queue := [], owed := 0, state := .shut }
            sleep := { s.sleep with shutExpiry := none } } : State).finish) ∧
      (e.kind = .closing → s.link.state = .shut →
        (decodeInbound b = .none → exec (.exchangeEnd b) s = .next { s with
          link := { s.link with exchange := none, lastDiscarded := false, lastCheckFailed := false } }) ∧
        (decodeInbound b = .failed → exec (.exchangeEnd b) s = .next { s with
          link := { s.link with exchange := none, lastDiscarded := false, lastCheckFailed := true } }) ∧
        ((∃ tag, decodeInbound b = .badRequest tag) ∨ (∃ i, decodeInbound b = .request i) →
          exec (.exchangeEnd b) s = .next { s with link := { s.link with
            exchange := none, lastDiscarded := true, lastCheckFailed := false, hwake := false } })) ∧
      (e.kind = .closing → s.link.state ≠ .shut →
        exec (.exchangeEnd b) s = .next { s with link := { s.link with exchange := none } }))) ∧
  (∀ (s t : State) (b : List Byte) (e : Exchange) (bits : Bool → Bool → State), s.link.exchange = some e → e.kind = .live →
    bits = (fun d f => { t with link := { t.link with lastDiscarded := d, lastCheckFailed := f } }) →
    (e.whole b.length = false → t = { s with link := { s.link with exchange := none } }) →
    (∀ q, e.frame = some q → e.whole b.length = true → t = { s with
      link := { s.link with
        exchange := none, queue := s.link.queue.drop 1
        owed := if q.frame.isAnswer then s.link.owed - 1 else s.link.owed }
      ring := match q.frame with
        | .roundReport r => s.ring.map fun x =>
            if x.number == r.number && x.planned == r.planned then { x with reported := true } else x
        | _ => s.ring }) →
    (∀ n, (e.whole n = true ↔ ∃ q, e.frame = some q ∧ q.frame.bytes.length + 1 ≤ n) ∧
      (e.clockedFinal n = true ↔ ∃ q, e.frame = some q ∧ q.final = true ∧ q.frame.bytes.length + 1 ≤ n)) ∧
    (e.clockedFinal b.length = false →
      (decodeInbound b = .none → exec (.exchangeEnd b) s = .next (bits false false)) ∧
      (decodeInbound b = .failed → exec (.exchangeEnd b) s = .next (bits false true)) ∧
      (∀ i, s.held = false → decodeInbound b = .request i → exec (.exchangeEnd b) s = exec i t) ∧
      (∀ tag, decodeInbound b = .badRequest tag →
        (t.link.state = .opened ∧ t.link.owed < 4 →
          exec (.exchangeEnd b) s = .next (t.answered tag .badArgument .none)) ∧
        (t.link.state = .opened ∧ 4 ≤ t.link.owed ∨ t.link.state = .closing ∨ t.link.state = .resetting →
          exec (.exchangeEnd b) s = .next { t with link := { t.link with
            lastDiscarded := true, lastCheckFailed := false, hwake := false } }))) ∧
    (∀ q good failed, e.frame = some q → q.final = true → e.whole b.length = true → s.link.state = .closing →
      (good = true ↔ (∃ tag, decodeInbound b = .badRequest tag) ∨ ∃ i, decodeInbound b = .request i) →
      (failed = true ↔ decodeInbound b = .failed) → exec (.exchangeEnd b) s = .next ({ t with
        link := { t.link with
          state := .shut, queue := [], owed := 0, lastDiscarded := good, lastCheckFailed := failed
          hwake := if good then false else s.link.hwake }
        sleep := { s.sleep with shutExpiry := none } } : State).finish)) ∧
  (decodeInbound [] = .none ∧ (∀ rest, decodeInbound (0#8 :: rest) = .none) ∧
    (∀ kind rest, 2 < kind.toNat → decodeInbound (kind :: rest) = .failed) ∧
    (∀ kind h : Byte, kind = 1#8 ∨ kind = 2#8 → decodeInbound [kind] = .failed ∧ decodeInbound [kind, h] = .failed) ∧
    (∀ (kind h l : Byte) (more : List Byte) (n : Nat), kind = 1#8 ∨ kind = 2#8 → n = h.toNat * 256 + l.toNat →
      2043 < n ∨ more.length < n + 2 ∨ (more.drop n).take 2 ≠ bytes16 (crc16 (kind :: h :: l :: more.take n)) ∨
        n < (if kind = 1#8 then 2 else 4) → decodeInbound (kind :: h :: l :: more) = .failed) ∧
    (∀ (frame : List Byte → List Byte) (code tag : Byte) (args extra : List Byte), args.length ≤ 2041 →
      frame = (fun payload => 1#8 :: bytes16 (BitVec.ofNat 16 payload.length) ++ payload ++
        bytes16 (crc16 (1#8 :: bytes16 (BitVec.ofNat 16 payload.length) ++ payload))) →
      code = 0#8 ∨ 22 < code.toNat ∨ (code = 18#8 ∧ args.length < 2) ∨
        (code ≠ 18#8 ∧ args.length ≠
          [0, 1, 0, 2, 1, 1, 2, 0, 3, 1, 0, 0, 0, 0, 3, 1, 0, 4, 2, 3, 4, 0, 0].getD code.toNat 0) ∨
        (code = 3#8 ∧ ∃ c m, args = [c, m] ∧ m ≠ 1#8 ∧ m ≠ 2#8) →
      decodeInbound (frame (code :: tag :: args) ++ extra) = .badRequest tag))

/-- R180: STATUS answers DONE with the section as it stands, the instant and the working epoch; GENERAL clears the
unsolicited-discard flag after showing it; a code that names no section is answered BAD_ARGUMENT. The contents of the nine
sections. That a capture's rounds held are its HELD items alone is entry 24.
The model's reading (entry 52, DEDUCED): GENERAL counts the STATUS itself among the answers owed, and shows the queue as it is before
its own REPLY joins. -/
def Obligations.StatusAnswers : Prop :=
  ∀ (s : State) (tag code : Byte), s.linkReady →
    (code.toNat = 0 ∨ 9 < code.toNat → exec (.status tag code) s = .next (s.answered tag .badArgument .none)) ∧
    (code ≠ 1#8 → ∀ x, s.taken.statusSection code = some x →
      exec (.status tag code) s = .next (s.answered tag .done (.status s.time s.workingEpoch x))) ∧
    (∀ x, s.taken.statusSection 1#8 = some x → exec (.status tag 1#8) s =
      .next (({ s with link := { s.link with unsolicitedDiscard := false } } : State).answered tag .done
        (.status s.time s.workingEpoch x))) ∧
    s.taken.statusSection 1#8 = some (.general s.sleep.op s.sleep.phase s.cursor s.roundCounter .opened s.link.answers
      s.link.unsolicited (s.link.owed + 1) s.link.unsolicitedDiscard) ∧
    s.taken.statusSection 4#8 = some (.current s.stream.state s.stream.history.getLast? s.stream.history.length) ∧
    s.taken.statusSection 5#8 = some (.limits s.limits) ∧ s.taken.statusSection 8#8 = some (.sleep s.sleep) ∧
    (∀ c p, p = s.port c → s.taken.statusSection (if c = .A then 2#8 else 3#8) = some (.chain c p.run p.table p.survey
      p.surveyPending p.aligned p.notAligned p.lastSurvey p.tagCounter p.marker p.internal.length p.forward.length
      p.transaction.isSome)) ∧
    s.taken.statusSection 6#8 = some (.ring s.ring.length (s.ring.head?.map RoundRecord.number)
      (s.ring.getLast?.map RoundRecord.number) ((s.ring.filter fun r => !r.closed).map RoundRecord.number)
      ((s.ring.filter fun r => 0 < r.holders).map RoundRecord.number)
      ((s.ring.find? fun r => r.closed && r.report && !r.reported).map RoundRecord.number)
      (s.captures.list.map fun c => ⟨c.id, c.cause, c.complete, c.anchor, (c.held.filter fun h => !h.dropped).length⟩)
      s.captures.nextId s.captures.lastRefusal) ∧
    s.taken.statusSection 7#8 = some (.contactors s.channels ⟨s.role .K1, s.role .K2, s.role .K3, s.role .K4⟩ s.sequencer
      s.inhibit s.window) ∧
    (∀ a b, a = s.store.slotA → b = s.store.slotB → s.taken.statusSection 9#8 = some (.update s.update.state
      s.update.stagedEpoch s.update.idleExpiry s.update.target s.update.latch s.update.lastOutcome
      (a.state, a.epoch, a.check) (b.state, b.epoch, b.check) s.store.floor s.store.tamperFlag s.store.identity
      s.tampFilter.active s.svcFilter.active s.workingEpoch (s.working.map Working.slot)))

/-- R2, R171, R181: BRIDGE_RESET is refused unless every channel is OPEN and the Sequencer IDLE; otherwise its DONE joins the
queue, the link becomes RESETTING for 50 ms, and at the end of the exchange that has clocked it out whole, whatever came in, or at
the expiry, every block but the Image Store takes its reset values.
R181: where the exchange in progress has clocked the DONE out whole (its bytes and the status byte before them), the expiry changes
nothing, and the reset waits for the end of that exchange.
The model's choices: the levels at the pins are kept through the reset (entry 12), an exchange that the reset cuts goes on shifting FFh
(entry 29), and the count of RESET# is kept through it (entry 30); an outbound frame is counted clocked by the rising edges the exchange
has sampled (entry 53). -/
def Obligations.BridgeResetAnswers : Prop :=
  ∀ (s : State) (tag : Byte),
    (s.linkReady → s.allOpen = true ∧ s.sequencer.state = .idle → exec (.bridgeReset tag) s =
      .next { s.taken with link := { s.taken.link with
        queue := s.link.queue ++ [⟨.reply tag .done .none, true⟩], state := .resetting
        resetExpiry := some (s.time + 50000#32) } }) ∧
    (s.linkReady → ¬(s.allOpen = true ∧ s.sequencer.state = .idle) → exec (.bridgeReset tag) s =
      .next (s.answered tag .refusedState .none)) ∧
    (∀ (due : Instant) (clocked : Prop), s.held = false →
      clocked = (∃ e q, s.link.exchange = some e ∧ e.kind = .live ∧ e.frame = some q ∧ q.final = true ∧
        q.frame.bytes.length + 1 ≤ e.bits.length / 8) →
      s.link.state = .resetting → s.link.resetExpiry = some due → reached due s.time = true →
      (¬clocked → exec .resetExpiry s =
        .next (State.afterReset s.store s.pins s.link.exchange.isSome s.free s.pending)) ∧
      (clocked → exec .resetExpiry s = .next s)) ∧
    (∀ (b : List Byte) (e : Exchange) (q : Queued), s.link.exchange = some e → e.kind = .live → e.frame = some q →
      q.final = true → s.link.state = .resetting →
      (e.whole b.length = true → exec (.exchangeEnd b) s =
        .next (State.afterReset s.store s.pins false s.free s.pending)) ∧
      (e.whole b.length = false → ∀ t, exec (.exchangeEnd b) s = .next t → t.link.state = .resetting ∧ t.time = s.time))

/-! ### The end of an event (R8, R34, R35, R140, R141) -/

/-- R34, R35: what ends an event that bears on the chains leaves the link, the contactor drives, the Sequencer, the window,
the inhibit set, the current history, the limits, the update and the store as they are, and of a channel changes at most the
debounce expiry (R102); where no chain is free and RUNNING, the cursor is not STOPPING and the bridge is not ENTERING, it
changes nothing.
R8, R140, R141: the arbiters decide, chain A first; a STOPPING cursor with no claim waiting and no round COLLECTING becomes STOPPED; in
the draining phase of ENTERING a REST then joins each RUNNING chain; and once the cursor is STOPPED, every REST has ended and the link is
SHUT, the bridge is ASLEEP: the oscillator stops, the sleep instant is written and the patrol timer starts, or, with a cause latched, it
is WAKING at once.
That the arbiters decide at the end of each event that bears on the chains is the model's reading (entry 28, DEDUCED). -/
def Obligations.EndOfEventFrame : Prop :=
  (∀ s : State,
     (∃ (oscillator : Bool) (cursor : Cursor) (pendingRound : Option RoundRecord) (ports : PerChain ChainPort)
       (ring : List RoundRecord) (captures : CaptureUnit) (channels : PerChannel Channel) (sleep : SleepController)
       (work : SleepWork), s.finish = { s with
         oscillator := oscillator, cursor := cursor, pendingRound := pendingRound, ports := ports, ring := ring
         captures := captures, channels := channels, sleep := sleep, sleepWork := work }) ∧
     (∀ k, ∃ debounce, s.finish.channel k = { s.channel k with debounceExpiry := debounce }) ∧
     ((∀ c, s.runs c = false ∨ (s.port c).transaction ≠ none) → s.cursor.state ≠ .stopping → s.sleep.op ≠ .entering →
       s.finish = s)) ∧
  (∀ (s u v : State) (on : Chain → Bool), (∀ c, on c = true ↔ (s.port c).run = .running) →
    u = { s with cursor := { s.cursor with
      state := if s.cursor.state = .stopping ∧ s.pendingRound = none ∧ ∀ r ∈ s.ring, r.closed = true then .stopped
        else s.cursor.state } } →
    v = { u with
      sleep := { s.sleep with phase := some .resting }
      ports := ⟨{ s.ports.a with internal := s.ports.a.internal ++ if on .A then [⟨0, 0xF2#8, [], .rest⟩] else [] },
        { s.ports.b with internal := s.ports.b.internal ++ if on .B then [⟨0, 0xF2#8, [], .rest⟩] else [] }⟩
      sleepWork := { s.sleepWork with
        awaiting := ⟨s.sleepWork.awaiting.a || on .A, s.sleepWork.awaiting.b || on .B⟩ } } →
    (s.sleep.op = .entering ∧ s.sleep.phase = some .draining ∧ u.cursor.state = .stopped →
      s.settleCursor = (v.arbitrate .A).arbitrate .B) ∧
    (¬(s.sleep.op = .entering ∧ s.sleep.phase = some .draining ∧ u.cursor.state = .stopped) → s.settleCursor = u)) ∧
  (∀ (s u : State) (i : Image), s.image = some i →
    u = { s with
      oscillator := false
      channels := ⟨{ s.channels.k1 with debounceExpiry := none }, { s.channels.k2 with debounceExpiry := none },
        { s.channels.k3 with debounceExpiry := none }, { s.channels.k4 with debounceExpiry := none }⟩
      sleep := { s.sleep with
        op := .asleep, phase := none, sleepInstant := some s.time
        patrolTimer := if i.patrolTable.chains = [] then none else
          some ⟨s.time + micros (i.patrolTable.interval * 1000000), i.patrolTable.interval * 1000000⟩ } } →
    (s.sleep.latched = .empty → s.fallAsleep = u) ∧
    (s.sleep.latched ≠ .empty → s.fallAsleep = { u with
      sleep := { u.sleep with op := .waking, phase := some .oscStart, patrolTimer := none }
      sleepWork := { s.sleepWork with
        phaseExpiry := some (s.time + 500#32), wakingSince := some s.time, awaiting := .both false
        roused := .both false } })) ∧
  (∀ s w : State, w = ((s.arbitrate .A).arbitrate .B).settleCursor →
    (w.sleep.op = .entering ∧ w.sleep.phase = some .resting ∧ w.cursor.state = .stopped ∧
        w.sleepWork.awaiting = .both false ∧ w.link.state = .shut → s.finish = w.fallAsleep) ∧
    (¬(w.sleep.op = .entering ∧ w.sleep.phase = some .resting ∧ w.cursor.state = .stopped ∧
        w.sleepWork.awaiting = .both false ∧ w.link.state = .shut) → s.finish = w))

/-! ### Requests to the chains -/

/-- R40: PASS is answered BAD_ARGUMENT where a field is out of range, the order code is a reserved one or the Node Table lists
no such position; then CHAIN_STOPPED where the chain is not RUNNING; otherwise it joins the forward queue.
The port of a chain, and what it is to write one. -/
def Obligations.PassAnswers : Prop :=
  (∀ (s : State) (chain position order tag : Byte) (data : List Byte), s.linkReady →
     (1 < chain.toNat ∨ 16 < position.toNat ∨ 64 < data.length ∨ 0xF0 ≤ order.toNat →
       exec (.pass chain position order tag data) s = .next (s.answered tag .badArgument .none).finish) ∧
     (∀ c, chainOf chain = some c → position.toNat ≤ 16 → data.length ≤ 64 → order.toNat < 0xF0 →
       (s.working ≠ none ∧ position.toNat ≠ 0 ∧ s.node c position.toNat = none →
         exec (.pass chain position order tag data) s = .next (s.answered tag .badArgument .none).finish) ∧
       (s.working = none ∨ position.toNat = 0 ∨ s.node c position.toNat ≠ none →
         ((s.port c).run ≠ .running →
           exec (.pass chain position order tag data) s = .next (s.answered tag .chainStopped .none).finish) ∧
         ((s.port c).run = .running →
           exec (.pass chain position order tag data) s = .next (s.taken.setPort c { s.port c with
             forward := (s.port c).forward ++ [⟨position.toNat, order, data, .pass tag⟩] }).finish)))) ∧
  (∀ (s : State) (p : ChainPort), s.port .A = s.ports.a ∧ s.port .B = s.ports.b ∧
    s.setPort .A p = { s with ports := ⟨p, s.ports.b⟩ } ∧ s.setPort .B p = { s with ports := ⟨s.ports.a, p⟩ })

/-- R43 to R45: CHAIN_STOP. A chain field that names no chain is answered BAD_ARGUMENT, and a chain that is STOPPED already is
answered DONE. A DRAIN of a RUNNING chain answers DONE where the chain is free and ACCEPTED otherwise, and empties its queues;
an ABORT cuts short what is in flight. On a chain that is free, with nothing queued, no claim waiting and no survey, both stop
the chain at once.
R31, R44, R45, R50: the steps of an ABORT: a PASS in flight is answered CHAIN_STOPPED, a survey's order and a TRIGGER end without
effect, the collecting part as ABORTED, and a REST or ROUSE is reported as ended; a waiting claim is withdrawn; the PASS frames of the
forward queue are answered CHAIN_STOPPED, head to tail; the internal queue is emptied, with a REST or ROUSE in it reported; a survey
ends ABORTED; CHAIN_STOPPED is noticed and DONE answered. A DRAINING chain stops when no transaction is in flight. That the chain
counts as STOPPED from the first step of an ABORT is entry 18.
What the withdrawal of a claim does is stated by StepExpires. The internal queue is emptied at once, and then each REST or ROUSE that it
held is reported as ended, from head to tail, whatever stood around it.
Codes 0 and 1 name the chains A and B. A claim waits in the round that is not placed or else in the oldest open record whose part of
the chain is WAITING. -/
def Obligations.ChainStopAnswers : Prop :=
  (((∀ (s : State) (tag chain : Byte), s.linkReady →
       (chainOf chain = none →
         exec (.chainStopDrain tag chain) s = .next (s.answered tag .badArgument .none).finish ∧
         exec (.chainStopAbort tag chain) s = .next (s.answered tag .badArgument .none).finish) ∧
       (∀ c, chainOf chain = some c →
         ((s.port c).run = .stopped →
           exec (.chainStopDrain tag chain) s = .next (s.answered tag .done .none).finish ∧
           exec (.chainStopAbort tag chain) s = .next (s.answered tag .done .none).finish) ∧
         ((s.port c).run = .draining →
           exec (.chainStopDrain tag chain) s = .next (s.answered tag .done .none).finish ∧
           exec (.chainStopAbort tag chain) s = .next (s.taken.abort tag c).finish) ∧
         ((s.port c).run = .running →
           exec (.chainStopDrain tag chain) s = .next (((((({ s with ports := s.ports.set c { s.port c with run := .draining } }
             : State).answered tag (if (s.port c).transaction.isNone then .done else .accepted) .none).emptyForward
             c).emptyInternal c).withdrawClaim c .stopped).drained c).finish ∧
           exec (.chainStopAbort tag chain) s = .next (s.taken.abort tag c).finish) ∧
         ((s.port c).run = .running → (s.port c).transaction = none → (s.port c).internal = [] → (s.port c).forward = [] →
           s.claimNumber c = none → (s.port c).survey = .idle →
           exec (.chainStopDrain tag chain) s = .next ((({ s with ports := s.ports.set c { s.port c with run := .stopped } }
             : State).answered tag .done .none).notify (.chainStopped c .drain)).finish ∧
           exec (.chainStopAbort tag chain) s = .next ((({ s with ports := s.ports.set c { s.port c with run := .stopped } }
             : State).taken.notify (.chainStopped c .abort)).queued (.reply tag .done .none)).finish))) ∧
    (∀ (s u v : State) (tag : Byte) (c : Chain), u = s.setPort c { s.port c with run := .stopped } →
      v = s.setPort c { s.port c with run := .stopped, transaction := none } → ∃ w,
        s.abort tag c = (((((w.withdrawClaim c .stopped).emptyForward c).emptyInternal c).abortSurvey c).notify
          (.chainStopped c .abort)).reply tag .done .none ∧
        ((s.port c).transaction = none → w = u) ∧
        (∀ r, (s.port c).transaction = some .trigger → s.collectingRound c = some r →
          w = (u.endPart c r.number .aborted).closeIfSettled r.number) ∧
        (∀ o t e due, (s.port c).transaction = some (.order o t e due) →
          (∀ p, o.owner = .pass p → w = v.reply p .chainStopped .none) ∧ ((∀ p, o.owner ≠ .pass p) → w = v)) ∧
        (∀ o settle, (s.port c).transaction = some (.broadcast o settle) →
          (∀ p, o.owner = .pass p → w = v.reply p .chainStopped .none) ∧
          (o.owner = .rest → w = v.broadcastEnded c true) ∧ (o.owner = .rouse → w = v.broadcastEnded c false))) ∧
    (∀ (v : State) (c : Chain) (u : State), u = v.setPort c { v.port c with internal := [] } →
      v.emptyForward c = { v.setPort c { v.port c with forward := [] } with
        link := (v.port c).forward.foldl (fun l o => match o.owner with
          | .pass p => l.offer (.reply p .chainStopped .none) false
          | _ => l) v.link } ∧
      ((∀ o ∈ (v.port c).internal, o.owner ≠ .rest ∧ o.owner ≠ .rouse) → v.emptyInternal c = u) ∧
      (∀ o, (v.port c).internal = [o] → (o.owner = .rest → v.emptyInternal c = u.broadcastEnded c true) ∧
        (o.owner = .rouse → v.emptyInternal c = u.broadcastEnded c false)) ∧
      ((v.port c).survey = .idle → v.abortSurvey c = v) ∧
      (∀ result, (v.port c).survey ≠ .idle → (v.port c).run ≠ .running →
        result = ⟨(v.port c).aligned, (v.port c).notAligned, .aborted⟩ → v.abortSurvey c =
          (v.setPort c { v.port c with survey := .idle, lastSurvey := some result }).notify (.surveyDone c result)) ∧
      ((v.port c).run ≠ .draining ∨ (v.port c).transaction ≠ none → v.drained c = v) ∧
      ((v.port c).run = .draining → (v.port c).transaction = none → v.drained c =
        ((v.setPort c { v.port c with run := .stopped }).abortSurvey c).notify (.chainStopped c .drain)))) ∧
   (∀ (v : State) (c : Chain), v.emptyInternal c =
     ((v.port c).internal.filter fun o => decide (o.owner = .rest ∨ o.owner = .rouse)).foldl
       (fun t o => t.broadcastEnded c (decide (o.owner = .rest))) (v.setPort c { v.port c with internal := [] }))) ∧
  (∀ (s : State) (c : Chain) (r : RoundRecord), chainOf 0#8 = some .A ∧ chainOf 1#8 = some .B ∧
    (∀ code : Byte, 1 < code.toNat → chainOf code = none) ∧
    (∀ d, r.waitsFor d = true ↔ ∃ before p after, r.parts = before ++ p :: after ∧ p.chain = d ∧
      p.state = .waiting ∧ ∀ q ∈ before, q.chain ≠ d) ∧
    (s.pendingRound = some r → s.claimNumber c = if r.waitsFor c = true then some r.number else none) ∧
    (s.pendingRound = none → (s.claimNumber c = none ↔ ∀ x ∈ s.ring, x.closed = true ∨ x.waitsFor c = false)) ∧
    (∀ before after, s.pendingRound = none → s.ring = before ++ r :: after → r.closed = false → r.waitsFor c = true →
      (∀ x ∈ before, x.closed = true ∨ x.waitsFor c = false) → s.claimNumber c = some r.number))

/-- R46: CHAIN_START makes a STOPPED chain RUNNING, with the answer DONE, and a survey pending on it begins; a RUNNING chain is
answered DONE and a DRAINING one BUSY.
R48, R50: a pending survey begins where the bridge is RUN, the chain RUNNING and no survey in flight, and stays pending otherwise. Over an
empty Node Table it is COMPLETE at once (entry 40, DEDUCED). -/
def Obligations.ChainStartAnswers : Prop :=
  (∀ (s : State) (tag chain : Byte), s.linkReady →
     (chainOf chain = none → exec (.chainStart tag chain) s = .next (s.answered tag .badArgument .none).finish) ∧
     (∀ c, chainOf chain = some c →
       ((s.port c).run = .running → exec (.chainStart tag chain) s = .next (s.answered tag .done .none).finish) ∧
       ((s.port c).run = .draining → exec (.chainStart tag chain) s = .next (s.answered tag .busy .none).finish) ∧
       ((s.port c).run = .stopped → exec (.chainStart tag chain) s =
         .next (((({ s with ports := s.ports.set c { s.port c with run := .running } } : State).answered tag .done
           .none)).pendingSurvey c).finish))) ∧
  (∀ (v : State) (c : Chain) (p : ChainPort) (done : SurveyResult), p = v.port c → done = ⟨[], [], .complete⟩ →
    (p.surveyPending = false ∨ p.survey ≠ .idle ∨ v.sleep.op ≠ .run ∨ p.run ≠ .running → v.pendingSurvey c = v) ∧
    (p.surveyPending = true → p.survey = .idle → v.sleep.op = .run → p.run = .running →
      (∀ e rest, p.table = e :: rest → v.pendingSurvey c = v.setPort c { p with
        surveyPending := false, aligned := [], notAligned := [], survey := .echoing e.position
        internal := p.internal ++ [⟨e.position, 0xF0#8, [], .echo⟩] }) ∧
      (p.table = [] → v.pendingSurvey c = (v.setPort c { p with
        surveyPending := false, aligned := [], notAligned := [], lastSurvey := some done }).notify (.surveyDone c done))))

/-- R48: SURVEY, the first case that applies; a survey that is taken puts an ECHO to the first planned position on the internal
queue, with the lists in progress cleared.
The model's choice (entry 40, DEDUCED): over an empty Node Table the survey is COMPLETE at once with empty lists, and one that is
pending (R50) begins and ends the same way in the same event. -/
def Obligations.SurveyAnswers : Prop :=
  ∀ (s : State) (tag chain : Byte), s.linkReady →
    (chainOf chain = none → exec (.survey tag chain) s = .next (s.answered tag .badArgument .none).finish) ∧
    (∀ c, chainOf chain = some c →
      (s.sleep.op = .unconfigured → exec (.survey tag chain) s = .next (s.answered tag .refusedState .none).finish) ∧
      (s.sleep.op ≠ .unconfigured →
        ((s.port c).run ≠ .running → exec (.survey tag chain) s = .next (s.answered tag .chainStopped .none).finish) ∧
        ((s.port c).run = .running → (s.port c).survey ≠ .idle →
          exec (.survey tag chain) s = .next (s.answered tag .busy .none).finish) ∧
        (∀ e rest, (s.port c).run = .running → (s.port c).survey = .idle → (s.port c).table = e :: rest →
          exec (.survey tag chain) s = .next ((s.answered tag .accepted .none).setPort c { s.port c with
            aligned := [], notAligned := [], survey := .echoing e.position
            internal := (s.port c).internal ++ [Order.echo e.position] }).finish) ∧
        ((s.port c).run = .running → (s.port c).survey = .idle → (s.port c).table = [] →
          ((s.port c).surveyPending = false ∨ s.sleep.op ≠ .run → exec (.survey tag chain) s =
            .next (((s.answered tag .accepted .none).setPort c { s.port c with
              aligned := [], notAligned := [], lastSurvey := some ⟨[], [], .complete⟩ }).notify
                (.surveyDone c ⟨[], [], .complete⟩)).finish) ∧
          ((s.port c).surveyPending = true → s.sleep.op = .run → exec (.survey tag chain) s =
            .next ((((s.answered tag .accepted .none).setPort c { s.port c with
              aligned := [], notAligned := [], surveyPending := false, lastSurvey := some ⟨[], [], .complete⟩ }).notify
                (.surveyDone c ⟨[], [], .complete⟩)).notify (.surveyDone c ⟨[], [], .complete⟩)).finish))))

/-! ### Requests to the Round Ring and the Capture Unit -/

/-- R86: READ_ROUND answers DONE with a copy of the whole record, BUSY for a COLLECTING one and NO_SUCH where the ring holds
none; nothing else changes.
11.3: the bytes of a round record, field by field. -/
def Obligations.ReadRoundAnswers : Prop :=
  (∀ (s : State) (tag : Byte) (n : RoundNumber), s.linkReady →
     (∀ r, s.record n = some r → r.closed = true → exec (.readRound tag n) s = .next (s.answered tag .done (.round r))) ∧
     (∀ r, s.record n = some r → r.closed = false → exec (.readRound tag n) s = .next (s.answered tag .busy .none)) ∧
     (s.record n = none → exec (.readRound tag n) s = .next (s.answered tag .noSuch .none)) ∧
     (s.record n = none ↔ ∀ r ∈ s.ring, r.number ≠ n) ∧ (∀ r, s.record n = some r → r ∈ s.ring ∧ r.number = n)) ∧
  (∀ (r : RoundRecord) (byte : Nat → Byte) (reading : Reading → List Byte) (part : ChainPart → List Byte)
      (verdict : VerdictItem → List Byte), byte = BitVec.ofNat 8 →
    reading = (fun x => [byte x.position,
      (match x.status with | .ok => 0#8 | .missing => 1#8 | .checkFailed => 2#8 | .unaligned => 3#8),
      (if x.nodeReset then 1#8 else 0#8) ||| (if x.localFault then 2#8 else 0#8), byte x.cells.length,
      byte x.temps.length] ++ x.cells.flatMap bytes16 ++ x.temps.flatMap bytes16) →
    part = (fun p => [(match p.chain with | .A => 0#8 | .B => 1#8),
      (match p.state with | .waiting => 0#8 | .sent => 1#8 | .missed => 2#8 | .stopped => 3#8),
      (match p.endCause with | none => 0#8 | some .complete => 1#8 | some .deadline => 2#8 | some .aborted => 3#8)] ++
      bytes32 (p.actual.getD 0#32) ++ bytes32 (p.lateness.getD 0#32) ++
      (match p.current with
        | none => [0#8, 0#8, 0#8, 0#8, 0#8, 0#8]
        | some c => [1#8, (c.value >>> 16).truncate 8, (c.value >>> 8).truncate 8, c.value.truncate 8] ++
            bytes16 (BitVec.ofInt 16 c.skew)) ++ byte p.readings.length :: p.readings.flatMap reading) →
    verdict = (fun v => [byte v.entry, (match v.verdict with | .within => 1#8 | .violate => 2#8 | .unknown => 3#8),
      (match v.change with | none => 0#8 | some .trip => 1#8 | some .release => 2#8)]) →
    r.bytes = bytes16 r.number ++ [(match r.step with | .step n => byte n | .wake => 0x40#8 | .patrol => 0x80#8),
      (match r.kind with | .cells => 1#8 | .temps => 2#8 | .both => 3#8),
      (if r.report then 1#8 else 0#8) ||| (if r.reported then 2#8 else 0#8) ||| (if r.closed then 4#8 else 0#8),
      byte r.holders] ++ bytes32 r.epoch ++ bytes32 r.planned ++ byte r.parts.length :: r.parts.flatMap part ++
      byte r.verdicts.length :: r.verdicts.flatMap verdict)

/-- R89 to R91, R93: CAPTURE_NOW creates a capture with cause HOST whose anchor is the newest CLOSED record, answers DONE with
its id, and notices CAPTURE_DONE after the answer where it is COMPLETE at creation; with 3 captures it is answered
REFUSED_STATE and the last-refusal record takes the cause and the instant.
R89, R90, R91: what a new capture is, for every cause: its id is the next id, or the first value after it that no capture holds and
that is not 0; its anchor is the round that is being closed, else the newest CLOSED record; it holds the anchor first and then the newest
of the other CLOSED records, up to P in all, listed in the order of the ring; and each channel of the snapshot is as it stands. -/
def Obligations.CaptureNowAnswers : Prop :=
  (∀ (s : State) (tag : Byte), s.linkReady →
     (s.captures.list.length < 3 → ∃ c : Capture, c = s.newCapture .host none ∧
       c.id ≠ 0#8 ∧ (∀ d ∈ s.captures.list, d.id ≠ c.id) ∧ c.cause = .host ∧ c.instant = s.time ∧
       c.epoch = s.workingEpoch ∧ c.samples = s.stream.history ∧
       c.stream = s.stream.state ∧ c.sequencer = s.sequencer.state ∧ (c.complete = true ↔ c.post = 0) ∧
       c.anchor = ((s.ring.filter RoundRecord.closed).map RoundRecord.number).getLast? ∧
       (∀ i, s.image = some i → c.pre = i.capturePre ∧ c.post = i.capturePost) ∧
       (s.image = none → c.pre = 0 ∧ c.post = 0) ∧
       (∀ h ∈ c.held, h.kind = .pre ∧ h.dropped = false ∧ ∃ r ∈ s.ring, r.number = h.number ∧ r.closed = true) ∧
       exec (.captureNow tag) s = .next ((({ s with
         captures := { s.captures with list := s.captures.list ++ [c], nextId := if c.id = 0xFF#8 then 1#8 else c.id + 1#8 }
         ring := s.ring.map fun r => if c.held.any fun h => h.number == r.number then { r with holders := r.holders + 1 } else r }
           : State).answered tag .done (.captureId c.id)).noticeDone c)) ∧
     (3 ≤ s.captures.list.length → exec (.captureNow tag) s =
       .next (({ s with captures := { s.captures with lastRefusal := some (.host, s.time) } } : State).answered tag
         .refusedState .none))) ∧
  (∀ (s : State) (cause : CaptureCause) (closing : Option RoundNumber) (pre post : Nat) (closed : List RoundNumber),
    (∀ i, s.image = some i → pre = i.capturePre ∧ post = i.capturePost) → (s.image = none → pre = 0 ∧ post = 0) →
    closed = ((s.ring.filter fun r => r.closed || decide (closing = some r.number)).map RoundRecord.number).reverse →
    s.newCapture cause closing = {
      id := freeId (s.captures.list.map Capture.id) 256 s.captures.nextId
      cause := cause, instant := s.time, epoch := s.workingEpoch, pre := pre, post := post, anchor := s.anchor closing
      held := (s.ring.filter fun r => decide (r.number ∈ s.preRounds closing pre)).map fun r => ⟨r.number, .pre, false⟩
      samples := s.stream.history, stream := s.stream.state
      contactors := ⟨s.snapshot .K1, s.snapshot .K2, s.snapshot .K3, s.snapshot .K4⟩
      sequencer := s.sequencer.state, complete := decide (post = 0) } ∧
    (∀ n, closing = some n → s.anchor closing = some n) ∧ (closing = none → s.anchor closing = closed.head?) ∧
    (s.anchor closing = none → s.preRounds closing pre = []) ∧
    (∀ a, s.anchor closing = some a →
      s.preRounds closing pre = (a :: closed.filter fun n => decide (n ≠ a)).take pre) ∧
    (∀ k, s.snapshot k = ⟨s.image.map fun i => (i.channelProfile k).role, (s.channel k).state, (s.channel k).stuck,
      (s.channel k).dropped, (s.channel k).welded, (s.channel k).debouncedClosed⟩)) ∧
  (∀ (taken : List Byte) (n : Byte) (j : Nat), j < 256 → n + BitVec.ofNat 8 j ∉ taken → n + BitVec.ofNat 8 j ≠ 0#8 →
    (∀ i, i < j → n + BitVec.ofNat 8 i ∈ taken ∨ n + BitVec.ofNat 8 i = 0#8) → freeId taken 256 n = n + BitVec.ofNat 8 j)

/-- R94, R95: READ_CAPTURE, tested in the order of R94; a CURRENT block and a held round are answered NO_SUCH where they do not
exist; nothing else changes.
The model's choice (entry 22, DEDUCED): the HEADER is answered whatever the index byte is, since R94 tests the index of the two other
parts alone.
The HEADER carries the number of entries of the current snapshot and its stream state, and not the entries; that it also carries the
newest one is the model's choice (entry 56, DEDUCED), since R53 counts it to a capture's header and R94 does not name it.
The capture with an id is the one of the list that has it. -/
def Obligations.ReadCaptureAnswers : Prop :=
  (∀ (s : State) (tag id part index : Byte), s.linkReady →
     (part ≠ 1#8 ∧ part ≠ 2#8 ∧ part ≠ 3#8 ∨ (part = 2#8 ∨ part = 3#8) ∧ 7 < index.toNat →
       exec (.readCapture tag id part index) s = .next (s.answered tag .badArgument .none)) ∧
     (part = 1#8 ∨ (part = 2#8 ∨ part = 3#8) ∧ index.toNat ≤ 7 → s.captureWith id = none →
       exec (.readCapture tag id part index) s = .next (s.answered tag .noSuch .none)) ∧
     (∀ c, s.captureWith id = some c →
       exec (.readCapture tag id 1#8 index) s = .next (s.answered tag .done (.captureHeader {
         id := c.id, cause := c.cause, instant := c.instant, epoch := c.epoch, pre := c.pre, post := c.post
         complete := c.complete, anchor := c.anchor, entries := c.samples.length, stream := c.stream
         newest := c.samples.getLast?, contactors := c.contactors, sequencer := c.sequencer, held := c.held })) ∧
       (index.toNat ≤ 7 → 32 * index.toNat < c.samples.length → exec (.readCapture tag id 2#8 index) s =
         .next (s.answered tag .done (.currentBlock ((c.samples.drop (32 * index.toNat)).take 32)))) ∧
       (index.toNat ≤ 7 → c.samples.length ≤ 32 * index.toNat → exec (.readCapture tag id 2#8 index) s =
         .next (s.answered tag .noSuch .none)) ∧
       (∀ h r, index.toNat ≤ 7 → c.held[index.toNat]? = some h → h.dropped = false → s.record h.number = some r →
         exec (.readCapture tag id 3#8 index) s = .next (s.answered tag .done (.roundPart index r))) ∧
       (∀ h, index.toNat ≤ 7 → c.held[index.toNat]? = some h → h.dropped = true →
         exec (.readCapture tag id 3#8 index) s = .next (s.answered tag .noSuch .none)) ∧
       (index.toNat ≤ 7 → c.held[index.toNat]? = none →
         exec (.readCapture tag id 3#8 index) s = .next (s.answered tag .noSuch .none)))) ∧
  (∀ (s : State) (id : Byte) (c : Capture), (s.captureWith id = none ↔ ∀ d ∈ s.captures.list, d.id ≠ id) ∧
    (s.captureWith id = some c → c ∈ s.captures.list ∧ c.id = id) ∧
    (c ∈ s.captures.list → c.id = id → (∀ d ∈ s.captures.list, d.id = id → d = c) → s.captureWith id = some c))

/-- R96: RELEASE_CAPTURE lowers the holder count of the record of every HELD round by 1, removes the capture and answers DONE;
an id that no capture has is answered NO_SUCH. -/
def Obligations.ReleaseCaptureAnswers : Prop :=
  ∀ (s : State) (tag id : Byte), s.linkReady →
    ((∀ c ∈ s.captures.list, c.id ≠ id) → exec (.releaseCapture tag id) s = .next (s.answered tag .noSuch .none)) ∧
    (∀ c, s.captureWith id = some c → exec (.releaseCapture tag id) s =
      .next (({ s with
        captures := { s.captures with list := s.captures.list.filter fun d => d.id != id }
        ring := s.ring.map fun r =>
          if c.held.any fun h => h.number == r.number && !h.dropped then { r with holders := r.holders - 1 } else r }
          : State).answered tag .done .none))

/-! ### The schedule, the rounds and the chains -/

/-- R5 to R8, R10: at the end of the present step a claim that still waits is withdrawn (with none waiting nothing is), and in
RUNNING the cursor advances, in STOPPING no further step begins. It advances to the next step at the instant of the expiry, or
past the last one to step 0, with the cycle count raised by 1, or, where an apply is pending and allowed, with the new image
and the cycle count 0. A QUIET step does nothing; a TRIGGER step creates its round with the next round number.
In STOPPING with no claim waiting, and in STOPPED and STARTING, the event has no effect.
R11, R13, R21: a claim withdrawn, whatever withdraws it: the part takes the state given, MISSED or STOPPED. Of a round that is not placed
yet, the round is placed and closes where that leaves nothing WAITING or open, and waits on for its other part otherwise; of a record in
the ring, it closes where that settles it, and stays COLLECTING otherwise. With no claim waiting nothing is withdrawn.
The transitional states of the Sequencer, in which no apply is allowed. -/
def Obligations.StepExpires : Prop :=
  (((∀ s u : State, s.held = false → reached s.stepEnd s.time = true →
      u = (s.withdrawClaim .A .missed).withdrawClaim .B .missed → u.cursor = s.cursor →
      (s.claimWaits .A = false → s.claimWaits .B = false → u = s) ∧
      (s.cursor.state = .running → exec .stepExpiry s = .next u.advance.finish) ∧
      (s.cursor.state = .stopping → s.claimWaits .A = true ∨ s.claimWaits .B = true →
        exec .stepExpiry s = .next u.finish)) ∧
    (∀ v : State,
      (v.cursor.step + 1 < v.steps.length → v.advance =
        State.beginStep { v with cursor := { v.cursor with step := v.cursor.step + 1, start := v.stepEnd } }) ∧
      (v.steps.length ≤ v.cursor.step + 1 →
        (v.update.state = .applyPending ∧ v.applyAllowed = true → v.advance =
          State.beginStep { v.apply with cursor := ⟨.running, 0, v.stepEnd, 0#32⟩ }) ∧
        (¬(v.update.state = .applyPending ∧ v.applyAllowed = true) → v.advance =
          State.beginStep { v with cursor := ⟨.running, 0, v.stepEnd, v.cursor.cycles + 1#32⟩ })) ∧
      (v.applyAllowed = true ↔ (∀ r ∈ v.ring, r.closed = true) ∧ v.sequencer.state.transitional = false ∧
        ∀ c, (v.port c).survey = .idle) ∧
      (∀ x, v.steps[v.cursor.step]? = some x →
        v.stepEnd = v.cursor.start + BitVec.ofNat 32 (x.width * 100) ∧
        (x.trigger = false → v.beginStep = v) ∧
        (x.trigger = true → v.beginStep = v.createRound {
          number := v.roundCounter + 1#16, step := .step v.cursor.step, kind := x.kind, report := x.report
          epoch := v.workingEpoch, planned := v.cursor.start, parts := x.chains.map (v.newPart v.cursor.start)
          verdicts := [], closed := false, holders := 0, reported := false })) ∧
      (∀ planned c,
        ((v.port c).run ≠ .running → (v.newPart planned c).state = .stopped) ∧
        ((v.port c).run = .running → (v.port c).transaction = none → (v.newPart planned c).state = .sent ∧
          (v.newPart planned c).actual = some planned ∧ (v.newPart planned c).lateness = some 0#32) ∧
        ((v.port c).run = .running → (v.port c).transaction ≠ none → (v.newPart planned c).state = .waiting)) ∧
      (∀ r, (v.createRound r).roundCounter = r.number))) ∧
   (∀ s : State, s.held = false → (s.cursor.state = .stopping → s.claimWaits .A = false → s.claimWaits .B = false →
       exec .stepExpiry s = .next s) ∧
     (s.cursor.state = .stopped ∨ s.cursor.state = .starting → exec .stepExpiry s = .next s)) ∧
   (∀ (v u : State) (c : Chain) (state : PartState) (r : RoundRecord) (mark : RoundRecord → RoundRecord)
       (waits settled : RoundRecord → Prop),
     mark = (fun x => { x with parts := x.parts.map fun p => if p.chain = c then { p with state := state } else p }) →
     waits = (fun x => ∃ p, x.part c = some p ∧ p.state = .waiting) →
     settled = (fun x => ∀ p ∈ x.parts, p.state ≠ .waiting ∧ (p.state = .sent → p.endCause ≠ none)) →
     (v.claimWaits c = false → v.withdrawClaim c state = v) ∧
     (v.pendingRound = some r → waits r → r.closed = false →
       (settled (mark r) → v.withdrawClaim c state =
         ((({ v with pendingRound := none } : State).placeRound (mark r)).closeStages r.number).afterClose (mark r)) ∧
       (¬settled (mark r) → (∀ x ∈ v.ring, x.number = r.number → x.closed = true) →
         v.withdrawClaim c state = { v with pendingRound := some (mark r) })) ∧
     (∀ before after, v.pendingRound = none → v.ring = before ++ r :: after → r.closed = false → waits r →
       (∀ x ∈ before, x.number ≠ r.number ∧ (x.closed = true ∨ ¬waits x)) →
       u = { v with ring := v.ring.map fun x => if x.number = r.number then mark x else x } →
       (settled (mark r) → v.withdrawClaim c state = (u.closeStages r.number).afterClose (mark r)) ∧
       (¬settled (mark r) → v.withdrawClaim c state = u)))) ∧
  (∀ q : SeqState, q.transitional = true ↔
    q = .negClosing ∨ q = .precharging ∨ q = .posClosing ∨ q = .preReleasing ∨ q = .disconnecting)

/-- R17, R18, R19: a sample set that finds the collecting round and a MISSING entry of its address fills it, as OK or, where the
node has reset or has no written holdoff, UNALIGNED; one whose lists are not of the planned counts, or that fails its check,
makes the entry CHECK_FAILED; one that finds no collecting round, another round or no MISSING entry is discarded.
R28, R50: with the fill the Node Table entry takes the local fault flag; a node that has reset loses its written holdoff, becomes
UNSURVEYED unless it is LOST, and leaves the aligned list of a survey in flight for the other; NODE_UNALIGNED is noticed, and with
auto-survey a survey is requested. What stands for the round low byte of an empty payload is free (entry 9).
R20, R21, R44: what follows a reading that is filled or failed: with an entry still MISSING nothing; with none, the part ends COMPLETE,
its chain is free, the round closes through its stages where that settles it, and then a DRAINING chain with nothing in flight is STOPPED,
its survey ended and CHAIN_STOPPED noticed.
R17: the collecting round of a chain is the open record whose SENT part has not ended. R183, with the SAMPLE SET table of 11.1: the
round low byte, the flags, the counts and the values of the payload of a sample set; one of other counts or another length has no values.
That a position moved from the aligned list joins the tail of the other is the model's choice (entry 55). -/
def Obligations.SampleSetsFillEntries : Prop :=
  (((∀ (s : State) (c : Chain) (address : Byte) (payload : List Byte) (set : SampleSet), s.held = false →
       readSampleSet payload = set →
       (s.collectingRound c = none → exec (.sampleSet c address payload) s = .next s.finish ∧
         exec (.sampleSetCheckFailed c address) s = .next s.finish) ∧
       (∀ r p, s.collectingRound c = some r → r.part c = some p →
         (set.roundLow ≠ r.number.truncate 8 → exec (.sampleSet c address payload) s = .next s.finish) ∧
         ((p.readings.find? fun y => y.position == address.toNat && y.status == .missing) = none →
           exec (.sampleSet c address payload) s = .next s.finish ∧
           exec (.sampleSetCheckFailed c address) s = .next s.finish) ∧
         (∀ x u, (p.readings.find? fun y => y.position == address.toNat && y.status == .missing) = some x →
           u = ((s.setReading c r.number ⟨x.position, .checkFailed, [], [], false, false⟩).afterReading c r.number).finish →
           exec (.sampleSetCheckFailed c address) s = .next u ∧
           (set.roundLow = r.number.truncate 8 → set.lists = none → exec (.sampleSet c address payload) s = .next u) ∧
           (∀ cells temps e, set.roundLow = r.number.truncate 8 → set.lists = some (cells, temps) →
             s.node c x.position = some e →
             (cells.length ≠ e.cells ∨ temps.length ≠ e.temps → exec (.sampleSet c address payload) s = .next u) ∧
             (cells.length = e.cells → temps.length = e.temps → exec (.sampleSet c address payload) s =
               .next ((((s.setReading c r.number ⟨x.position,
                 if set.nodeReset = true ∨ e.holdoff = none then .unaligned else .ok, cells, temps, set.nodeReset,
                 set.localFault⟩).takeNodeFlags c x.position set.nodeReset set.localFault r.number).afterReading c
                   r.number)).finish))))) ∧
    (∀ (s u : State) (c : Chain) (position : Nat) (nodeReset localFault : Bool) (n : RoundNumber) (p q : ChainPort),
      p = s.port c → u = (s.setPort c q).notify (.nodeUnaligned c position n) →
      q = { p with
        table := p.table.map fun e => if e.position = position then { e with
          localFault := localFault, holdoff := none, state := if e.state = .lost then .lost else .unsurveyed } else e
        aligned := if p.survey ≠ .idle then p.aligned.filter (fun x => x != position) else p.aligned
        notAligned := if p.survey ≠ .idle ∧ position ∈ p.aligned then p.notAligned ++ [position] else p.notAligned } →
      (nodeReset = false → s.takeNodeFlags c position nodeReset localFault n = s.setPort c { p with
        table := p.table.map fun e => if e.position = position then { e with localFault := localFault } else e }) ∧
      (nodeReset = true →
        (s.image = none ∨ (∃ i, s.image = some i ∧ (i.timing c).autoSurvey = false) →
          s.takeNodeFlags c position nodeReset localFault n = u) ∧
        ((∃ i, s.image = some i ∧ (i.timing c).autoSurvey = true) →
          s.takeNodeFlags c position nodeReset localFault n = u.requestSurvey c)))) ∧
   (∀ (v t w : State) (c : Chain) (n : RoundNumber) (x y : RoundRecord) (p : ChainPart), v.record n = some x →
     x.part c = some p → p.state = .sent → p.endCause = none →
     y = { x with parts := x.parts.map fun q => if q.chain = c then { q with endCause := some .complete } else q } →
     w = { v with
       ring := v.ring.map fun r => if r.number = n then { r with
         parts := r.parts.map fun q => if q.chain = c then { q with endCause := some .complete } else q } else r
       ports := v.ports.set c { v.port c with transaction := none } } →
     ((∃ z ∈ p.readings, z.status = .missing) → (v.port c).transaction ≠ none → v.afterReading c n = v) ∧
     ((∀ z ∈ p.readings, z.status ≠ .missing) →
       (t = (if x.closed = false ∧ (∀ q ∈ y.parts, q.state ≠ .waiting ∧ (q.state = .sent → q.endCause ≠ none)) then
         (w.closeStages n).afterClose y else w) → v.afterReading c n =
           if (t.port c).run = .draining ∧ (t.port c).transaction = none then
             ((t.setPort c { t.port c with run := .stopped }).abortSurvey c).notify (.chainStopped c .drain)
           else t)))) ∧
  (∀ (s : State) (c : Chain) (n : RoundNumber) (x : Reading) (r : RoundRecord) (p : ChainPart) (open_ : RoundRecord → Prop),
    open_ = (fun r => r.closed = false ∧ ∃ p, r.part c = some p ∧ p.state = .sent ∧ p.endCause = none) →
    (s.collectingRound c = none ↔ ∀ r ∈ s.ring, ¬open_ r) ∧
    (∀ before after, s.ring = before ++ r :: after → open_ r → (∀ y ∈ before, ¬open_ y) →
      s.collectingRound c = some r) ∧
    (r.part c = some p ↔ ∃ before after, r.parts = before ++ p :: after ∧ p.chain = c ∧ ∀ q ∈ before, q.chain ≠ c) ∧
    s.setReading c n x = { s with ring := s.ring.map fun r => if r.number = n then { r with
      parts := r.parts.map fun p => if p.chain = c then { p with
        readings := p.readings.map fun y => if y.position = x.position then x else y } else p } else r }) ∧
  (∀ (low flags c t : Byte) (rest : List Byte) (set : SampleSet), set = readSampleSet (low :: flags :: c :: t :: rest) →
    set.roundLow = low ∧ set.nodeReset = flags.getLsbD 0 ∧ set.localFault = flags.getLsbD 1 ∧
    (¬(1 ≤ c.toNat ∧ c.toNat ≤ 16 ∧ t.toNat ≤ 4 ∧ rest.length = 2 * c.toNat + 2 * t.toNat) → set.lists = none) ∧
    (∀ cells temps : List (BitVec 16), 1 ≤ c.toNat → c.toNat ≤ 16 → t.toNat ≤ 4 → cells.length = c.toNat →
      temps.length = t.toNat → rest = cells.flatMap bytes16 ++ temps.flatMap bytes16 →
      set.lists = some (cells, temps))) ∧
  (∀ payload : List Byte, payload.length < 4 → (readSampleSet payload).lists = none ∧
    ∀ low rest, payload = low :: rest → (readSampleSet payload).roundLow = low)

/-- R20, R21, R22: the deadline of the collecting part of a chain, the end of a TRIGGER frame that no node answers and the
overdue claim of a WAKE or PATROL round, one not placed yet or a record in the ring: the part ends and frees its chain, or the claim is
withdrawn as MISSED. A round that has settled closes through its four stages, and one that has not stays COLLECTING.
R82, R83: a round takes an empty place of the 32, or that of the oldest CLOSED record that no capture holds; a record of the same number
is taken out first and DROPPED from the captures that hold it.
3.2, R57, R58: stage 1 writes the current entry of each SENT part: of the words of the current span within 250 µs of its sample
instant the nearest, the earlier of two equally near. In LIVE and LOST the span goes back to the newest entry that starts one, and is the
whole history where none does.
R87, R92: at stage 4 the record is CLOSED, every COLLECTING capture with another anchor takes it as a post round, with CAPTURE_DONE for
those that become COMPLETE, and a record with its report flag is offered. That no rule orders those two is entry 3, and that the notices
of two captures come oldest first is entry 43.
What the withdrawal of a claim does is stated by StepExpires. That CAPTURE_DONE counts the rounds still held, and not the dropped ones, is
the model's reading (entry 24, DEDUCED).
The window, the target and the converter delay are those of the working image; a round has settled when no part waits and every SENT
part has ended. -/
def Obligations.CollectionsEnd : Prop :=
  (((∀ (s : State) (c : Chain) (r : RoundRecord) (p : ChainPart) (a : Instant), s.held = false →
      s.collectingRound c = some r → r.part c = some p → p.actual = some a →
      (reached (a + micros (s.windowOf c)) s.time = true → exec (.collectionDeadline c) s =
        .next (((s.endPart c r.number .deadline).closeIfSettled r.number).drained c).finish) ∧
      (p.readings = [] → reached (a + 40#32) s.time = true → exec (.triggerFrameEnd c) s =
        .next (((s.endPart c r.number .complete).closeIfSettled r.number).drained c).finish)) ∧
    (∀ (s : State) (c : Chain) (r : RoundRecord) (marked : RoundRecord), s.held = false → s.pendingRound = some r →
      r.waitsFor c = true → r.step = .wake ∨ r.step = .patrol → reached (r.planned + micros (s.windowOf c)) s.time = true →
      r.closed = false → marked = r.mapPart c (fun p => { p with state := .missed }) →
      (marked.settled = false → (∀ x ∈ s.ring, x.number = r.number → x.closed = true) →
        exec (.waitingClaimWithdrawal c) s = .next ({ s with pendingRound := some marked } : State).finish) ∧
      (marked.settled = true → exec (.waitingClaimWithdrawal c) s =
        .next (((({ s with pendingRound := none } : State).placeRound marked).closeStages r.number).afterClose
          marked).finish)) ∧
    (∀ (s u : State) (c : Chain) (r marked : RoundRecord) (before after : List RoundRecord), s.held = false →
      s.pendingRound = none → s.ring = before ++ r :: after → r.closed = false → r.waitsFor c = true →
      (∀ x ∈ before, x.number ≠ r.number ∧ (x.closed = true ∨ x.waitsFor c = false)) →
      r.step = .wake ∨ r.step = .patrol → reached (r.planned + micros (s.windowOf c)) s.time = true →
      marked = r.mapPart c (fun p => { p with state := .missed }) →
      u = { s with ring := s.ring.map fun x =>
        if x.number = r.number then x.mapPart c fun p => { p with state := .missed } else x } →
      (marked.settled = false → exec (.waitingClaimWithdrawal c) s = .next u.finish) ∧
      (marked.settled = true → exec (.waitingClaimWithdrawal c) s =
        .next ((u.closeStages r.number).afterClose marked).finish)) ∧
    (∀ (v : State) (c : Chain) (n : RoundNumber) (cause : EndCause) (x : RoundRecord),
      v.endPart c n cause = { v with
        ring := v.ring.map fun r => if r.number == n then r.mapPart c fun p => { p with endCause := some cause } else r
        ports := v.ports.set c { v.port c with transaction := none } } ∧
      (v.record n = some x →
        (x.closed = false ∧ x.settled = true → v.closeIfSettled n = (v.closeStages n).afterClose x) ∧
        (¬(x.closed = false ∧ x.settled = true) → v.closeIfSettled n = v) ∧
        (∀ k, x.step = .step k → (v.closeStages n).afterClose x = v.closeStages n)) ∧
      (∀ r ∈ (v.closeStages n).ring, r.number = n → r.closed = true))) ∧
   (∀ (v u : State) (r : RoundRecord),
     u = { v with
       ring := v.ring.filter fun x => x.number != r.number
       captures := { v.captures with list := v.captures.list.map fun c => { c with held := c.held.map fun h =>
         if h.number = r.number then { h with dropped := true } else h } } } →
     ((∀ x ∈ v.ring, x.number ≠ r.number) → v.placeRound r =
       { v with ring := (if v.ring.length < 32 then v.ring else dropOldestFree v.ring) ++ [r] }) ∧
     ((∃ x ∈ v.ring, x.number = r.number) → v.placeRound r =
       { u with ring := (if u.ring.length < 32 then u.ring else dropOldestFree u.ring) ++ [r] })) ∧
   (∀ (before after : List RoundRecord) (x : RoundRecord), x.closed = true → x.holders = 0 →
     (∀ y ∈ before, y.closed = false ∨ y.holders ≠ 0) → dropOldestFree (before ++ x :: after) = before ++ after) ∧
   (∀ (v : State) (n : RoundNumber),
     v.writeCurrents n = { v with ring := v.ring.map fun r => if r.number == n then
       { r with parts := r.parts.map fun p => { p with current := v.partCurrent p } } else r } ∧
     (∀ p, p.state ≠ .sent → v.partCurrent p = none) ∧
     (∀ (p : ChainPart) (a : Instant), p.state = .sent → p.actual = some a →
       v.partCurrent p = nearestCurrent (a + micros v.target) v.converterDelay v.stream.span) ∧
     (v.stream.state = .absent → v.stream.span = []) ∧
     (∀ before x after, v.stream.state ≠ .absent → v.stream.history = before ++ x :: after → x.spanStart = true →
       (∀ y ∈ after, y.spanStart = false) → v.stream.span = x :: after) ∧
     (v.stream.state ≠ .absent → (∀ y ∈ v.stream.history, y.spanStart = false) →
       v.stream.span = v.stream.history)) ∧
   (∀ (target : Instant) (delay : Nat) (words : List CurrentSample) (skew : CurrentSample → Int),
     skew = (fun x => instantDiff (x.arrival - micros delay) target) →
     ((∀ x ∈ words, skew x < -250 ∨ 250 < skew x) → nearestCurrent target delay words = none) ∧
     (∀ before x after, words = before ++ x :: after → -250 ≤ skew x → skew x ≤ 250 →
       (∀ y ∈ before, -250 ≤ skew y → skew y ≤ 250 → (skew x).natAbs < (skew y).natAbs) →
       (∀ y ∈ after, -250 ≤ skew y → skew y ≤ 250 → (skew x).natAbs ≤ (skew y).natAbs) →
       nearestCurrent target delay words = some ⟨x.value, skew x⟩)) ∧
   (∀ (v w : State) (n : RoundNumber) (takers : List Capture) (taken : Capture → Capture),
     w = { v with ring := v.ring.map fun r => if r.number == n then { r with closed := true } else r } →
     takers = v.captures.list.filter (fun c => !c.complete && c.anchor != some n) →
     taken = (fun c => { c with
       held := c.held ++ [⟨n, .post, false⟩]
       complete := decide (c.post ≤ (c.held.filter fun h => h.kind == .post).length + 1) }) →
     (takers = [] → v.reports n = false → v.finishRound n = w) ∧
     (takers ≠ [] → v.reports n = false → v.finishRound n = ({ w with free := w.free + 1 } : State).takePostRound n) ∧
     (takers = [] → v.reports n = true → v.finishRound n = ({ w with free := w.free + 1 } : State).reportRound n) ∧
     (takers ≠ [] → v.reports n = true →
       v.finishRound n = (({ w with free := w.free + 2 } : State).takePostRound n).reportRound n ∨
       v.finishRound n = (({ w with free := w.free + 2 } : State).reportRound n).takePostRound n) ∧
     v.takePostRound n = takers.foldl (fun t c => t.noticeDone (taken c)) { v with
       captures := { v.captures with list := v.captures.list.map fun c =>
         if c.complete = false ∧ c.anchor ≠ some n then taken c else c }
       ring := v.ring.map fun r => if r.number == n then { r with holders := r.holders + takers.length } else r } ∧
     (∀ c, v.noticeDone c = if c.complete = true then
       v.notifyAwake (.captureDone c.id c.cause c.anchor (c.held.filter fun h => !h.dropped).length) else v) ∧
     (∀ r, v.record n = some r → v.reportRound n = v.offer (.roundReport r) ∧ v.reports n = r.report) ∧
     v.closeStages n = (((v.writeCurrents n).countRound n).evaluateRound n).finishRound n)) ∧
  (∀ (s : State) (i : Image) (r : RoundRecord) (c : Chain) (f : ChainPart → ChainPart), s.image = some i →
    s.windowOf c = (i.timing c).window ∧ s.target = (i.timing .A).target ∧ s.converterDelay = i.shared.converterDelay ∧
    (∀ x y : Instant, instantDiff x y = (x - y).toInt) ∧
    r.mapPart c f = { r with parts := r.parts.map fun p => if p.chain = c then f p else p } ∧
    (r.settled = true ↔ ∀ p ∈ r.parts, p.state ≠ .waiting ∧ (p.state = .sent → p.endCause ≠ none)))

/-- R37, R38, R39, R41: the matching ANSWER ends the order in flight and goes to its owner, a PASS as a RELAY; the timeout ends it
without, a PASS with NO_ANSWER and its tag kept; the settle instant ends a broadcast, a PASS with DONE. An ANSWER that does not match an
order in flight, whatever is in flight, is a late RELAY where its tag and position are kept, and is discarded otherwise.
R29: after a REST every entry of the Node Table is RESTING with its state saved, and after a ROUSE each has its saved state again.
R3, R49: an ECHO's round trip runs from the end instant of its order to the start instant of the ANSWER, in tenths of a microsecond;
it is the signed difference, below 0 where the ANSWER starts before the ECHO has ended (entry 11). -/
def Obligations.OrdersEnd : Prop :=
  (∀ (s : State) (c : Chain) (u : State), s.held = false →
     u = { s with ports := s.ports.set c { s.port c with transaction := none } } →
     (∀ o t e due address data start, (s.port c).transaction = some (.order o t e due) → address.toNat = o.position →
       (∀ tag, o.owner = .pass tag →
         exec (.answer c t address data start) s =
           .next ((u.offer (.relay tag c o.position false data)).drained c).finish ∧
         (reached due s.time = true → exec (.orderTimeout c) s =
           .next (((({ s with ports := s.ports.set c { s.port c with
             transaction := none, kept := (s.port c).kept ++ [⟨t, o.position, tag⟩] } } : State).offer
               (.reply tag .noAnswer .none)).drained c).finish))) ∧
       (o.owner = .echo →
         exec (.answer c t address data start) s =
           .next ((u.echoAnswered c o.position ((start.instant - e).toInt * 10 + start.tenth.val)).drained c).finish ∧
         (reached due s.time = true → exec (.orderTimeout c) s = .next ((u.echoTimedOut c o.position).drained c).finish)) ∧
       (∀ v, o.owner = .setHoldoff v →
         exec (.answer c t address data start) s = .next ((u.holdoffAnswered c o.position v).drained c).finish ∧
         (reached due s.time = true → exec (.orderTimeout c) s =
           .next ((u.holdoffTimedOut c o.position).drained c).finish))) ∧
     (∀ o settle, (s.port c).transaction = some (.broadcast o settle) → reached settle s.time = true →
       (∀ tag, o.owner = .pass tag → exec (.broadcastSettle c) s =
         .next ((u.offer (.reply tag .done .none)).drained c).finish) ∧
       (o.owner = .rest → exec (.broadcastSettle c) s =
         .next (((u.restTable c).broadcastEnded c true).drained c).finish) ∧
       (o.owner = .rouse → exec (.broadcastSettle c) s =
         .next (((u.rouseTable c).broadcastEnded c false).drained c).finish)) ∧
     (∀ t address data start,
       (∀ o t' e due, (s.port c).transaction = some (.order o t' e due) → t ≠ t' ∨ address.toNat ≠ o.position) →
       (∀ k, ((s.port c).kept.find? fun k => k.tag == t && k.position == address.toNat) = some k →
         exec (.answer c t address data start) s = .next (({ s with ports := s.ports.set c { s.port c with
           kept := (s.port c).kept.filter fun k => !(k.tag == t && k.position == address.toNat) } } : State).offer
             (.relay k.passTag c k.position true data)).finish) ∧
       ((∀ k ∈ (s.port c).kept, k.tag ≠ t ∨ k.position ≠ address.toNat) →
         exec (.answer c t address data start) s = .next s.finish))) ∧
  (∀ (u : State) (c : Chain),
    u.restTable c = u.setPort c { u.port c with resting := true, table := (u.port c).table.map fun e =>
      if e.state = .resting then e else { e with state := .resting, saved := some e.state } } ∧
    u.rouseTable c = u.setPort c { u.port c with resting := false, table := (u.port c).table.map fun e =>
      if e.state = .resting then { e with state := e.saved.getD .unsurveyed, saved := none } else e })

/-- R48, R49, R50: the echo latency is half of what the round trip exceeds 4 µs by, and the holdoff the target less it, which is written
to the node; a holdoff below 0 is not, and the node becomes UNSURVEYED. A node that is not answered in time becomes MISSING; a LOST one
stays LOST. The position goes on one of the two lists and the survey on to the next planned position; after the highest it ends COMPLETE
with SURVEY_DONE, and a pending survey begins. A draining chain takes no further step, and a request of the bridge that finds a survey in
flight is pending. An ANSWER and a timeout of an ECHO or a SET_HOLDOFF in flight bring these steps about.
R3, R49: the round trip runs from the end instant of the ECHO to the start instant of the ANSWER, in tenths of a microsecond; that the
latency keeps its low 16 bits is the model's choice (entry 11, DESIGN CHOICE); that a survey on a draining
chain takes no step even at its highest position, and so ends ABORTED, is the model's reading (entry 21, DEDUCED).
That the round trip is the signed difference of the two, below 0 and so without latency where the ANSWER starts before the ECHO has
ended, is the model's reading of R1 (entry 11).
A LOST node keeps its state; the orders of a survey; the target is chain A's. -/
def Obligations.SurveySteps : Prop :=
  ((∀ (s : State) (c : Chain) (position : Nat) (roundTrip : Int), s.runs c = true →
      latencyOf roundTrip = (if roundTrip < 40 then 0 else ((roundTrip - 40) / 2).toNat) ∧
      (latencyOf roundTrip ≤ s.target * 10 → s.echoAnswered c position roundTrip =
        ((s.mapNode c position fun e => { e with latency := some (BitVec.ofNat 16 (latencyOf roundTrip)) }).mapPort c fun p =>
          { p with
            survey := .writing position
            internal := p.internal ++
              [Order.setHoldoff position (BitVec.ofNat 16 (s.target * 10 - latencyOf roundTrip))] })) ∧
      (∀ e : NodeEntry, e.state ≠ .lost → e.become .missing = { e with state := .missing }) ∧
      (∀ e : NodeEntry, e.state = .lost → e.become .missing = e) ∧
      (s.echoTimedOut c position = (s.mapNode c position fun e => e.become .missing).surveyNext c position false) ∧
      (∀ value, s.holdoffAnswered c position value =
        (s.mapNode c position fun e => { e with holdoff := some value }.become .active).surveyNext c position true) ∧
      (∀ (e : NodeEntry) (aligned : Bool), (s.port c).table.find? (fun e => decide (position < e.position)) = some e →
        s.surveyNext c position aligned = s.setPort c { s.port c with
          aligned := if aligned = true then (s.port c).aligned ++ [position] else (s.port c).aligned
          notAligned := if aligned = true then (s.port c).notAligned else (s.port c).notAligned ++ [position]
          survey := .echoing e.position
          internal := (s.port c).internal ++ [Order.echo e.position] })) ∧
   (∀ (s u : State) (c : Chain) (position : Nat) (roundTrip : Int) (aligned : Bool),
     (s.target * 10 < latencyOf roundTrip → s.echoAnswered c position roundTrip =
       (s.mapNode c position fun e => { e with
         latency := some (BitVec.ofNat 16 (latencyOf roundTrip)), holdoff := none
         state := if e.state = .lost then .lost else .unsurveyed }).surveyNext c position false) ∧
     (s.holdoffTimedOut c position = (s.mapNode c position fun e => { e with
       holdoff := none, state := if e.state = .lost then .lost else .missing }).surveyNext c position false) ∧
     (u = s.setPort c { s.port c with
       aligned := if aligned = true then (s.port c).aligned ++ [position] else (s.port c).aligned
       notAligned := if aligned = true then (s.port c).notAligned else (s.port c).notAligned ++ [position] } →
       ((s.port c).run ≠ .running → s.surveyNext c position aligned = u) ∧
       ((s.port c).run = .running → (∀ e ∈ (s.port c).table, e.position ≤ position) →
         ∀ w, w = (u.setPort c { u.port c with
           survey := .idle, lastSurvey := some ⟨(u.port c).aligned, (u.port c).notAligned, .complete⟩ }).notify
             (.surveyDone c ⟨(u.port c).aligned, (u.port c).notAligned, .complete⟩) →
           ((s.port c).surveyPending = false ∨ s.sleep.op ≠ .run → s.surveyNext c position aligned = w) ∧
           (∀ e rest, (s.port c).surveyPending = true → s.sleep.op = .run → (s.port c).table = e :: rest →
             s.surveyNext c position aligned = w.setPort c { w.port c with
               surveyPending := false, aligned := [], notAligned := [], survey := .echoing e.position
               internal := (w.port c).internal ++ [Order.echo e.position] }))) ∧
     (¬((s.port c).survey = .idle ∧ s.sleep.op = .run ∧ (s.port c).run = .running) →
       s.requestSurvey c = s.setPort c { s.port c with surveyPending := true }) ∧
     (∀ t e due o tag address data start, s.held = false → address.toNat = o.position →
       (s.port c).transaction = some (.order o tag e due) → t = s.setPort c { s.port c with transaction := none } →
       (o.owner = .echo →
         exec (.answer c tag address data start) s =
           .next ((t.echoAnswered c o.position ((start.instant - e).toInt * 10 + start.tenth.val)).drained c).finish ∧
         (reached due s.time = true → exec (.orderTimeout c) s = .next ((t.echoTimedOut c o.position).drained c).finish)) ∧
       (∀ value, o.owner = .setHoldoff value →
         exec (.answer c tag address data start) s = .next ((t.holdoffAnswered c o.position value).drained c).finish ∧
         (reached due s.time = true → exec (.orderTimeout c) s =
           .next ((t.holdoffTimedOut c o.position).drained c).finish))))) ∧
  (∀ (e : NodeEntry) (state : NodeState) (s : State), e.become state = (if e.state = .lost then e else { e with state := state }) ∧
    Order.echo e.position = ⟨e.position, 0xF0#8, [], .echo⟩ ∧
    (∀ value, Order.setHoldoff e.position value = ⟨e.position, 0xF1#8, bytes16 value, .setHoldoff value⟩) ∧
    (∀ i, s.image = some i → s.target = (i.timing .A).target) ∧
    (∀ c f, s.mapPort c f = s.setPort c (f (s.port c))))

/-- R42, R146: an ALERT is noticed in RUN, in UNCONFIGURED and in WAKING once the link is no longer SHUT; elsewhere a
WAKE_REQUEST latches its cause where the link is SHUT and the chain alert is enabled, and changes nothing where not. A
LOCAL_FAULT sets the flag of its entry, but in ASLEEP and on a chain that is RESTING without a notice it changes nothing.
The chain alert is enabled by the patrol table of the working image, and by none without one. -/
def Obligations.AlertsAreTaken : Prop :=
  (∀ (s : State) (c : Chain) (address code : Byte), s.held = false →
     (s.sleep.op = .run ∨ s.sleep.op = .unconfigured ∨ (s.sleep.op = .waking ∧ s.link.state ≠ .shut) →
       (code = 2#8 → exec (.alert c address code) s = .next (s.notify (.alert c address true))) ∧
       (code ≠ 2#8 → exec (.alert c address code) s = .next ((s.notify (.alert c address false)).mapNode c address.toNat
         fun e => { e with localFault := true }))) ∧
     (s.sleep.op = .entering ∨ s.sleep.op = .asleep ∨ s.sleep.op = .patrol ∨
         (s.sleep.op = .waking ∧ s.link.state = .shut) →
       (code = 2#8 → s.link.state = .shut → s.chainAlertEnabled = true →
         exec (.alert c address code) s = .next (s.latch .chainAlert)) ∧
       (code = 2#8 → s.link.state ≠ .shut ∨ s.chainAlertEnabled = false → exec (.alert c address code) s = .next s) ∧
       (code ≠ 2#8 → s.sleep.op = .asleep ∨ s.resting c = true → exec (.alert c address code) s = .next s) ∧
       (code ≠ 2#8 → s.sleep.op ≠ .asleep → s.resting c = false → exec (.alert c address code) s =
         .next (s.mapNode c address.toNat fun e => { e with localFault := true })))) ∧
  (∀ (s : State) (c : Chain), (s.image = none → s.chainAlertEnabled = false) ∧
    (∀ i, s.image = some i → s.chainAlertEnabled = i.patrolTable.chainAlert) ∧ s.resting c = (s.port c).resting)

/-- R27: what a closing round does to the Node Table entry of a node entry of a SENT part: a delivery clears the miss count, makes
the node ACTIVE or UNSURVEYED and notices the return of a LOST one; a miss of a part that was not ABORTED raises the count, up to
15, and at the limit makes the node LOST, with the notice and the action.
The round: countRound is this walk over the readings of the SENT parts, in the order of the record, and MISSED and STOPPED parts change
nothing; a part lists the planned positions of its chain in ascending order, and a step names chain A before B. -/
def Obligations.RoundsCountNodes : Prop :=
  (∀ (s : State) (c : Chain) (cause : EndCause) (x : Reading) (n : RoundNumber) (e : NodeEntry) (i : Image),
     s.image = some i → s.node c x.position = some e →
     (x.status ≠ .missing →
       ∀ u, u = s.mapNode c x.position (fun e => { e with
         missCount := 0, state := if e.holdoff.isSome then .active else .unsurveyed }) →
       (e.state ≠ .lost → s.countReading c (some cause) x n = u) ∧
       (e.state = .lost → s.countReading c (some cause) x n = u.notify (.nodeBack c x.position))) ∧
     (x.status = .missing → cause = .aborted → s.countReading c (some cause) x n = s) ∧
     (x.status = .missing → cause ≠ .aborted →
       (e.state = .lost → s.countReading c (some cause) x n = s.mapNode c x.position fun _ =>
         { e with missCount := min (e.missCount + 1) 15 }) ∧
       (e.state ≠ .lost → min (e.missCount + 1) 15 < i.nodeLossLimit c → s.countReading c (some cause) x n =
         s.mapNode c x.position fun _ => { e with missCount := min (e.missCount + 1) 15, state := .missing }) ∧
       (e.state ≠ .lost → i.nodeLossLimit c ≤ min (e.missCount + 1) 15 → s.countReading c (some cause) x n =
         (((s.mapNode c x.position fun _ => { e with missCount := min (e.missCount + 1) 15, state := .lost }).notify
           (.nodeLost c x.position (min (e.missCount + 1) 15))).fire (i.nodeLossAction c) (.node c x.position) (some n))))) ∧
  (∀ (v : State) (n : RoundNumber) (r : RoundRecord),
    (v.record n = some r → v.countRound n = (r.parts.filter fun p => decide (p.state = .sent)).foldl
      (fun t p => p.readings.foldl (fun t x => t.countReading p.chain p.endCause x n) t) v) ∧
    (v.record n = none → v.countRound n = v) ∧
    (∀ c cause x, v.node c x.position = none → v.countReading c cause x n = v) ∧
    (∀ c position f, v.mapNode c position f = v.setPort c { v.port c with
      table := (v.port c).table.map fun e => if e.position = position then f e else e })) ∧
  (∀ (s : State) (i : Image) (c : Chain) (planned : Instant) (code : Nat),
    (s.newPart planned c).readings = (s.port c).table.map (fun e => ⟨e.position, .missing, [], [], false, false⟩) ∧
    chainsOf code ∈ [[], [.A], [.B], [.A, .B]] ∧ (i.plan c).Pairwise (fun x y => x.position < y.position))

/-- R33, R34, R36, R39: a chain that is not free or not RUNNING is granted nothing. On a free one a waiting claim comes first; of
two heads that fit, the one of the queue that was not granted last; else the one that fits. An order to a node is in flight with
the tag of the counter until its timeout, and a broadcast until 100 µs after its frame. An order fits where the chain has no
planned instant, or where its reserved duration ends by that instant less the guard.
R9: the next planned instant: none where the cursor is not RUNNING or the chain is not; else the start of the first later TRIGGER step
that names the chain, in the rest of this cycle and the next one; while an apply is pending the earlier of that and the cycle boundary.
R16, R24: the frame of an order to a node carries the tag taken at its grant, and those of a TRIGGER and of a broadcast carry tag 0 and
leave the counter as it is.
R11, R13: the grant of a waiting claim: the part is SENT with the instant of the grant as actual instant and what that is past the
planned instant as lateness, a round that is not placed yet joins the ring, and the TRIGGER is the transaction of the chain. A claim
waits in the round that is not placed or in a record that is not CLOSED. That the search for the next planned instant begins after the
step at which the cursor stands is the model's reading (entry 17, DEDUCED).
R33, R36: the reserved duration: the frame's 7 + n bytes of 5 µs, and for a node the answer timeout, its base and a hop for each position,
for a broadcast 100 µs; the guard of the chain. Without a working image the answer timeout is one free value (entry 6, DESIGN
CHOICE). -/
def Obligations.ArbiterDecides : Prop :=
  (((∀ (s : State) (c : Chain),
       ((s.port c).run ≠ .running ∨ (s.port c).transaction ≠ none → s.arbitrate c = s) ∧
       ((s.port c).run = .running → (s.port c).transaction = none →
         (s.claimWaits c = true → s.arbitrate c = s.grantClaim c) ∧
         (∀ i f, s.claimWaits c = false → s.fittingHead c (s.port c).internal = some i →
           s.fittingHead c (s.port c).forward = some f →
           s.arbitrate c = if (s.port c).marker = .internal then s.grantForward c f else s.grantInternal c i) ∧
         (∀ i, s.claimWaits c = false → s.fittingHead c (s.port c).internal = some i →
           s.fittingHead c (s.port c).forward = none → s.arbitrate c = s.grantInternal c i) ∧
         (∀ f, s.claimWaits c = false → s.fittingHead c (s.port c).internal = none →
           s.fittingHead c (s.port c).forward = some f → s.arbitrate c = s.grantForward c f) ∧
         (s.claimWaits c = false → s.fittingHead c (s.port c).internal = none →
           s.fittingHead c (s.port c).forward = none → s.arbitrate c = s)) ∧
       (∀ o, (o.position ≠ 0 → s.grantForward c o = s.setPort c { s.port c with
           forward := (s.port c).forward.drop 1, marker := .forward
           transaction := some (.order o (s.port c).tagCounter (s.time + micros ((7 + o.data.length) * 5))
             (s.time + micros ((7 + o.data.length) * 5) + s.answerTimeout c o.position))
           tagCounter := (s.port c).tagCounter + 1#4
           kept := (s.port c).kept.filter fun k => k.tag != (s.port c).tagCounter }) ∧
         (o.position = 0 → s.grantForward c o = s.setPort c { s.port c with
           forward := (s.port c).forward.drop 1, marker := .forward
           transaction := some (.broadcast o (s.time + micros ((7 + o.data.length) * 5) + 100#32)) }) ∧
         (s.nextPlanned c = none → s.fits c o = true) ∧
         (∀ p, s.nextPlanned c = some p →
           (s.fits c o = true ↔ later (s.time + s.reserved c o) (p - micros (s.guard c)) = false))) ∧
       (s.fittingHead c [] = none) ∧
       (∀ o rest, s.fittingHead c (o :: rest) = if s.fits c o then some o else none)) ∧
    (∀ (s : State) (c : Chain) (boundary : Instant), boundary = s.cursor.start + micros (totalDuration (s.steps.drop s.cursor.step)) →
      (s.cursor.state ≠ .running ∨ (s.port c).run ≠ .running → s.nextPlanned c = none) ∧
      (s.cursor.state = .running → (s.port c).run = .running →
        (s.update.state ≠ .applyPending → s.nextPlanned c = s.upcomingTrigger c) ∧
        (s.update.state = .applyPending → s.upcomingTrigger c = none → s.nextPlanned c = some boundary) ∧
        (∀ p, s.update.state = .applyPending → s.upcomingTrigger c = some p →
          s.nextPlanned c = some (if later p boundary = true then boundary else p))) ∧
      ((∀ x ∈ s.upcoming, x.1.trigger = true → c ∉ x.1.chains) → s.upcomingTrigger c = none) ∧
      (∀ before x start after, s.upcoming = before ++ (x, start) :: after → x.trigger = true → c ∈ x.chains →
        (∀ y ∈ before, y.1.trigger = true → c ∉ y.1.chains) → s.upcomingTrigger c = some start) ∧
      (s.cursor.step < s.steps.length → s.upcoming.length = 2 * s.steps.length - s.cursor.step - 1) ∧
      (∀ n x, s.steps[n]? = some x →
        (s.cursor.step < n → s.upcoming[n - s.cursor.step - 1]? =
          some (x, s.cursor.start + micros (totalDuration ((s.steps.take n).drop s.cursor.step)))) ∧
        (s.cursor.step < s.steps.length → s.upcoming[s.steps.length - s.cursor.step - 1 + n]? =
          some (x, boundary + micros (totalDuration (s.steps.take n))))) ∧
      (∀ steps, totalDuration steps = (steps.map fun x => x.width * 100).sum)) ∧
    (∀ (s : State) (c : Chain),
      (∀ o, (o.position ≠ 0 → s.grantInternal c o = s.setPort c { s.port c with
          internal := (s.port c).internal.drop 1, marker := .internal
          transaction := some (.order o (s.port c).tagCounter (s.time + micros ((7 + o.data.length) * 5))
            (s.time + micros ((7 + o.data.length) * 5) + s.answerTimeout c o.position))
          tagCounter := (s.port c).tagCounter + 1#4
          kept := (s.port c).kept.filter fun k => k.tag != (s.port c).tagCounter }) ∧
        (o.position = 0 → s.grantInternal c o = s.setPort c { s.port c with
          internal := (s.port c).internal.drop 1, marker := .internal
          transaction := some (.broadcast o (s.time + micros ((7 + o.data.length) * 5) + 100#32)) })) ∧
      (s.sendTrigger c = s.setPort c { s.port c with transaction := some .trigger }) ∧
      ((s.port c).transaction = none → s.downwardFrame c = none) ∧
      (∀ r, (s.port c).transaction = some .trigger → s.collectingRound c = some r → s.downwardFrame c =
        some (0xA5#8 :: chainFrame 1#8 0#4 0#8 [r.number.truncate 8, r.kind.code])) ∧
      (∀ o tag e due, (s.port c).transaction = some (.order o tag e due) → s.downwardFrame c =
        some (0xA5#8 :: chainFrame 2#8 tag (byteOfNat o.position) (o.code :: o.data))) ∧
      (∀ o settle, (s.port c).transaction = some (.broadcast o settle) → s.downwardFrame c =
        some (0xA5#8 :: chainFrame 2#8 0#4 (byteOfNat o.position) (o.code :: o.data))))) ∧
   (∀ (s : State) (c : Chain) (r : RoundRecord) (send : RoundRecord → RoundRecord) (waits : RoundRecord → Prop)
       (trigger : State → State), send = (fun x => { x with parts := x.parts.map fun p => if p.chain = c then { p with
         state := .sent, actual := some s.time, lateness := some (s.time - x.planned) } else p }) →
     waits = (fun x => ∃ p, x.part c = some p ∧ p.state = .waiting) →
     trigger = (fun t => t.setPort c { t.port c with transaction := some .trigger }) →
     (s.claimWaits c = true ↔ (∃ x, s.pendingRound = some x ∧ waits x) ∨ (∃ x ∈ s.ring, x.closed = false ∧ waits x)) ∧
     (s.pendingRound = some r → waits r →
       s.grantClaim c = trigger (({ s with pendingRound := none } : State).placeRound (send r))) ∧
     (∀ before after, s.pendingRound = none → s.ring = before ++ r :: after → r.closed = false → waits r →
       (∀ x ∈ before, x.closed = true ∨ ¬waits x) → s.grantClaim c =
         trigger { s with ring := s.ring.map fun x => if x.number = r.number then send x else x }))) ∧
  (∀ (s : State) (c : Chain) (o : Order) (position : Nat),
    s.reserved c o = micros ((7 + o.data.length) * 5) + (if o.position = 0 then 100#32 else s.answerTimeout c o.position) ∧
    (∀ i, s.image = some i → s.guard c = (i.timing c).guard ∧
      s.answerTimeout c position = micros ((i.timing c).answerBase + position * (i.timing c).hop)) ∧
    (s.image = none → ∃ x : BitVec 31, ∀ t : State, ∀ d, t.image = none → t.answerTimeout d position = x.zeroExtend 32))

/-! ### The current stream and the limits -/

/-- R51 to R56: outside RUN and UNCONFIGURED a word changes nothing; in them it joins the newest 256 of the history with its gap
and span start flags, makes the stream LIVE and sets the loss expiry 1 ms on, with CURRENT_BACK where the stream was LOST, and is
handed on: with no entry that judges words and no precharge, without further effect. At the loss expiry the stream is LOST with
CURRENT_LOST, and the action fires where a channel is not OPEN.
That CURRENT_LOST carries the latest current of R59, sequence number and stream state too, is the model's reading (entry 58, DEDUCED).
R51: while CSFS is active the bits of CSDI make up the word, the most significant first: fewer than 32 are kept and hand over nothing,
and the 32nd completes the word, which joins the commands that wait (entry 39); bits past it are ignored, and so are those under an
inactive strobe. A change of the strobe leaves no bit of a word, so a strobe that ends early discards what was read. The bits of a word
that a reset cuts are not kept (entry 50). -/
def Obligations.CurrentStreamFollowsWords : Prop :=
  ((∀ (s : State) (word : BitVec 32), s.held = false →
      (s.sleep.op ≠ .run → s.sleep.op ≠ .unconfigured → exec (.currentWord word) s = .next s) ∧
      (∀ (value : BitVec 24) (sequence : Byte) (gap : Bool) (u : State),
        s.sleep.op = .run ∨ s.sleep.op = .unconfigured →
        value = (word >>> 8).truncate 24 → sequence = word.truncate 8 →
        (gap = true ↔ s.stream.state ≠ .live ∨ ∀ x, s.stream.history.getLast? = some x → sequence ≠ x.sequence + 1#8) →
        u = { s with stream := { s.stream with
          history := (s.stream.history ++ [CurrentSample.mk value sequence s.time gap (decide (s.stream.state ≠ .live))]).drop
            (s.stream.history.length + 1 - 256)
          state := .live, lossExpiry := some (s.time + 1000#32) } } →
        (s.stream.state ≠ .lost → exec (.currentWord word) s = .next (u.handWord value sequence gap)) ∧
        (s.stream.state = .lost → exec (.currentWord word) s =
          .next ((u.notify (.currentBack value sequence s.time)).handWord value sequence gap)) ∧
        (s.stream.state ≠ .lost → s.judgesWords = false → s.sequencer.state ≠ .precharging →
          exec (.currentWord word) s = .next u)) ∧
      (∀ (due : Instant) (u : State), s.stream.state = .live → s.stream.lossExpiry = some due → reached due s.time = true →
        u = ({ s with stream := { s.stream with state := .lost, lossExpiry := none } } : State).notify
          (.currentLost ⟨s.stream.history.getLast?.map fun x => ⟨x.value, x.sequence, x.arrival⟩, .lost⟩) →
        (s.allOpen = true ∨ s.image = none → exec .lossTimerExpiry s = .next u) ∧
        (∀ i, s.allOpen = false → s.image = some i →
          exec .lossTimerExpiry s = .next (u.fire i.shared.currentLossAction .current none)))) ∧
   (∀ (s : State) (bits more : List Bool) (active : Bool) (receive : List Bool → State → State), s.held = false →
     receive = (fun l s => l.foldl (fun s b => s.receiveBit b) s) →
     (s.pins.csfs = active → s.strobeChanges active = s) ∧
     (s.pins.csfs ≠ active → s.strobeChanges active =
       { s with pins := { s.pins with csfs := active }, stream := { s.stream with bits := [] } }) ∧
     (s.pins.csfs = false → receive bits s = s) ∧
     (s.pins.csfs = true → s.stream.bits = [] →
       (bits.length < 32 → receive bits s = { s with stream := { s.stream with bits := bits } }) ∧
       (∀ word : BitVec 32, bits.length = 32 → (∀ n, n < 32 → word.getMsbD n = bits.getD n false) →
         receive (bits ++ more) s = { s with
           stream := { s.stream with bits := bits }, pending := s.pending ++ [.currentWord word] })))) ∧
  (State.reset.stream.bits = [] ∧ ∀ (store : ImageStore) (pins : Pins) (selected : Bool) (free : Nat) (pending : List Instr),
    (State.afterReset store pins selected free pending).stream.bits = [])

/-- R64 to R67, R71: the verdict of a CELL or TEMP entry on a round, of a SPREAD entry and of a CURRENT entry on a word, the run
of verdicts that trips or releases an entry, and what a verdict does: the run state is written, and on a change TRIP or RELEASE
is noticed and, after TRIP, the action fires.
R62, R63: the covered values, of the OK and UNALIGNED entries alone, chain by chain, position by position; the rounds and the words an
entry applies to. R64, R65: what a TRIP shows: the first value outside, or the spread with the first of the largest and of the smallest
values.
R70, R72: a closing round is judged by the applicable entries, and a word by the CURRENT ones, in index order, each acting before the next;
the verdict list of the round takes an item for each VIOLATE and each change.
The values of each quantity, and the step of an anchor: a word has none. -/
def Obligations.LimitsAreJudged : Prop :=
  (((∀ (e : LimitEntry) (r : RoundRecord), e.quantity = .cell ∨ e.quantity = .temp →
      ((judgeRound e r).1 = .violate ↔ ∃ v ∈ coveredValues e r, v.value < e.low ∨ e.high < v.value) ∧
      ((judgeRound e r).1 = .unknown ↔ (∀ v ∈ coveredValues e r, e.low ≤ v.value ∧ v.value ≤ e.high) ∧
        ∃ x ∈ coveredReadings e r, x.2.status = .missing ∨ x.2.status = .checkFailed)) ∧
    (∀ (e : LimitEntry) (r : RoundRecord), e.quantity = .spread →
      ((judgeRound e r).1 = .violate ↔
        ∃ v ∈ coveredValues e r, ∃ w ∈ coveredValues e r, e.high < v.value - w.value)) ∧
    (∀ (e : LimitEntry) (value : BitVec 24),
      (value.toInt < e.low ∨ e.high < value.toInt → judgeWord e value = (.violate, some (.current value))) ∧
      (e.low ≤ value.toInt ∧ value.toInt ≤ e.high → judgeWord e value = (.within, none))) ∧
    (∀ count persistence : Nat,
      (count + 1 < persistence →
        runAfter .normal count persistence .violate = (.normal, count + 1, none) ∧
        runAfter .tripped count persistence .within = (.tripped, count + 1, none)) ∧
      (persistence ≤ count + 1 →
        runAfter .normal count persistence .violate = (.tripped, 0, some .trip) ∧
        runAfter .tripped count persistence .within = (.normal, 0, some .release)) ∧
      runAfter .normal count persistence .within = (.normal, 0, none) ∧
      runAfter .tripped count persistence .violate = (.tripped, 0, none) ∧
      (∀ r, runAfter r count persistence .unknown = (r, count, none))) ∧
    (∀ (s : State) (n : Nat) (e : LimitEntry) (f : Finding) (source : LimitSource) (closing : Option RoundNumber)
        (run : LimitRun) (state : RunState) (count : Nat), s.limits[n]? = some run →
      (runAfter run.state run.count e.persistence f.1 = (state, count, none) →
        s.applyVerdict n e f source closing = { s with limits := s.limits.set n ⟨state, count, run.lastChange⟩ }) ∧
      (runAfter run.state run.count e.persistence f.1 = (state, count, some .trip) →
        s.applyVerdict n e f source closing =
          ((({ s with limits := s.limits.set n ⟨state, count, some ⟨.trip, source, s.workingEpoch⟩⟩ } : State).notifyAwake
            (.trip n e.quantity source (s.stepOf source) s.workingEpoch f.2)).fire e.action (.limit n) closing)) ∧
      (runAfter run.state run.count e.persistence f.1 = (state, count, some .release) →
        s.applyVerdict n e f source closing =
          ({ s with limits := s.limits.set n ⟨state, count, some ⟨.release, source, s.workingEpoch⟩⟩ } : State).notifyAwake
            (.release n e.quantity source (s.stepOf source) s.workingEpoch)))) ∧
   (∀ (e : LimitEntry) (r : RoundRecord),
     (coveredValues e r = (r.parts.filter fun p => decide (p.chain ∈ e.chains)).flatMap fun p =>
       (p.readings.filter fun x => decide (e.firstPosition ≤ x.position ∧ x.position ≤ e.lastPosition ∧
         (x.status = .ok ∨ x.status = .unaligned))).flatMap fun x =>
           ((quantityValues e.quantity x).zipIdx.filter fun v =>
             decide (e.firstChannel ≤ v.2 + 1 ∧ v.2 + 1 ≤ e.lastChannel)).map fun v => ⟨p.chain, x.position, v.2 + 1, v.1⟩) ∧
     (appliesToRound e r = true ↔ (if r.step = .patrol then e.asleep = true else e.awake = true) ∧
       ((e.quantity = .cell ∨ e.quantity = .spread) ∧ (r.kind = .cells ∨ r.kind = .both) ∨
         e.quantity = .temp ∧ (r.kind = .temps ∨ r.kind = .both)) ∧
       ∃ p ∈ r.parts, p.chain ∈ e.chains ∧ ∃ x ∈ p.readings, e.firstPosition ≤ x.position ∧ x.position ≤ e.lastPosition) ∧
     (∀ before v after, e.quantity = .cell ∨ e.quantity = .temp → coveredValues e r = before ++ v :: after →
       (∀ w ∈ before, e.low ≤ w.value ∧ w.value ≤ e.high) → v.value < e.low ∨ e.high < v.value →
       judgeRound e r = (.violate, some (.value v))) ∧
     (e.quantity = .spread → ((judgeRound e r).1 = .unknown ↔
       (∀ v ∈ coveredValues e r, ∀ w ∈ coveredValues e r, v.value - w.value ≤ e.high) ∧
         ∃ x ∈ coveredReadings e r, x.2.status = .missing ∨ x.2.status = .checkFailed)) ∧
     (∀ before largest after front smallest rest, e.quantity = .spread →
       coveredValues e r = before ++ largest :: after → (∀ v ∈ before, v.value < largest.value) →
       (∀ v ∈ after, v.value ≤ largest.value) → coveredValues e r = front ++ smallest :: rest →
       (∀ v ∈ front, smallest.value < v.value) → (∀ v ∈ rest, smallest.value ≤ v.value) →
       e.high < largest.value - smallest.value → judgeRound e r =
         (.violate, some (.spread (largest.value - smallest.value) largest smallest)))) ∧
   (∀ (v : State) (n : RoundNumber) (r : RoundRecord) (done : State × List VerdictItem), v.record n = some r →
     done = v.limitEntries.foldl (fun acc x =>
       if x.1.quantity = .current ∨ appliesToRound x.1 r = false then acc
       else
         (acc.1.applyVerdict x.2 x.1 (judgeRound x.1 r) (.round n) (some n),
           if (judgeRound x.1 r).1 = .violate ∨ acc.1.changeOf x.2 x.1 (judgeRound x.1 r).1 ≠ none then
             acc.2 ++ [⟨x.2, (judgeRound x.1 r).1, acc.1.changeOf x.2 x.1 (judgeRound x.1 r).1⟩]
           else acc.2)) (v, []) →
     v.evaluateRound n = { done.1 with
       ring := done.1.ring.map fun r => if r.number == n then { r with verdicts := done.2 } else r }) ∧
   (∀ (v : State) (value : BitVec 24) (sequence : Byte) (arrival : Instant),
     v.evaluateWord value sequence arrival = v.limitEntries.foldl (fun t x =>
       if x.1.quantity = .current ∧ x.1.awake = true then
         t.applyVerdict x.2 x.1 (judgeWord x.1 value) (.word sequence arrival) none
       else t) v ∧
     (v.image = none → v.limitEntries = []) ∧
     (∀ i, v.image = some i → (v.limitEntries.map Prod.snd).Pairwise (· < ·) ∧
       ∀ n e, n < i.limit.length → ((e, n) ∈ v.limitEntries ↔ i.limitEntry n = some e)) ∧
     (∀ n run e verdict, v.limits[n]? = some run →
       v.changeOf n e verdict = (runAfter run.state run.count e.persistence verdict).2.2))) ∧
  (∀ (s : State) (x : Reading) (n : RoundNumber) (sequence : Byte) (arrival : Instant),
    quantityValues .cell x = x.cells.map (fun v => (v.toNat : Int)) ∧
    quantityValues .spread x = x.cells.map (fun v => (v.toNat : Int)) ∧
    quantityValues .temp x = x.temps.map BitVec.toInt ∧ quantityValues .current x = [] ∧
    s.stepOf (.round n) = (s.record n).map RoundRecord.step ∧ s.stepOf (.word sequence arrival) = none)

/-- R73, R75 to R78, R124: an action fires. "None", and any action while UNCONFIGURED, change nothing. Each channel of the mask that
is in PULL_IN or HOLD goes to DROPOUT with its drive off, and no other channel moves, but where the Sequencer is DISCONNECTING; an
opening outside IDLE and TRIPPED makes the Sequencer TRIPPED with the cause; the inhibit flag adds the cause once; in a sleep
state the wake-host flag latches BREACH; the capture flag requests a capture. No other block changes. -/
def Obligations.ActionsFire : Prop :=
  ∀ (s : State) (cause : Cause) (closing : Option RoundNumber),
    s.fire none cause closing = s ∧ (s.image = none → ∀ n, s.fire (some n) cause closing = s) ∧
    (∀ (i : Image) (n : Nat) (a : ActionEntry) (t : State), s.image = some i → a = i.actionEntry n →
      t = s.fire (some n) cause closing →
      (∀ k ∈ a.opens, (s.channel k).state.isClosed = true → (t.channel k).state = .dropout ∧ t.drives.get k = .off) ∧
      (∀ k, (s.channel k).state.isClosed = false → t.channel k = s.channel k ∧ t.drives.get k = s.drives.get k) ∧
      (s.sequencer.state ≠ .disconnecting → ∀ k, k ∉ a.opens →
        t.channel k = s.channel k ∧ t.drives.get k = s.drives.get k) ∧
      (a.opens = [] ∨ s.sequencer.state = .idle ∨ s.sequencer.state = .tripped → t.sequencer = s.sequencer) ∧
      (a.opens ≠ [] → s.sequencer.state ≠ .idle → s.sequencer.state ≠ .tripped →
        t.sequencer.state = .tripped ∧ t.sequencer.tripCause = some cause ∧
        t.sequencer.disconnectPending = (s.sequencer.state == .disconnecting)) ∧
      (a.inhibit = false ∨ cause ∈ s.inhibit → t.inhibit = s.inhibit) ∧
      (a.inhibit = true → cause ∉ s.inhibit → t.inhibit = s.inhibit ++ [cause]) ∧
      (a.wakeHost = false ∨ s.sleep.op = .run ∨ s.sleep.op = .unconfigured → t.sleep = s.sleep) ∧
      (a.wakeHost = true → s.sleep.op ≠ .run → s.sleep.op ≠ .unconfigured →
        t.sleep.latched = { s.sleep.latched with breach := true }) ∧
      (a.capture = false → a.opens = [] → t.captures = s.captures) ∧
      (a.capture = true → a.opens = [] → s.captures.list.length < 3 →
        ∃ c, t.captures.list = s.captures.list ++ [c] ∧ c.cause = .action cause ∧ c.instant = s.time) ∧
      (a.capture = true → a.opens = [] → 3 ≤ s.captures.list.length →
        t.captures = { s.captures with lastRefusal := some (.action cause, s.time) }) ∧
      t.time = s.time ∧ t.cursor = s.cursor ∧ t.ports = s.ports ∧ t.stream = s.stream ∧ t.limits = s.limits ∧
      t.update = s.update ∧ t.store = s.store ∧ t.working = s.working)

/-! ### The phases and the feedback of the channels -/

/-- R106 to R108: the end of PULL_IN: closed feedback brings HOLD, with the first PWM period, and open feedback STUCK, with DROPOUT
and the drive off. The end of DROPOUT brings OPEN with the flags STUCK and DROPPED clear, and WELDED as the feedback says. In HOLD
the drive goes off at the end of the on-time and begins the next period at the end of the period.
R110, R113: the last fault is recorded, the change is noticed and reported to the Sequencer; what the Sequencer and the fault action
then do is SequencerSteps. The model's choice (entry 20, DEDUCED): the CONTACTOR notice comes before what the Sequencer makes of it.
R131: with every channel OPEN the window is disarmed (reference, expiry and last good absent, fault count 0); with one that is not it is
armed, with the reference at that instant. That a window that is disarmed
keeps its early bound is the model's choice (entry 13). A channel that is linked takes the duty of K1. -/
def Obligations.ChannelPhasesEnd : Prop :=
  (∀ (s : State) (k : ChannelId) (i : Image), s.held = false → s.image = some i →
     (∀ due, (s.channel k).state = .pullIn → (s.channel k).phaseExpiry = some due → reached due s.time = true →
       ((s.channel k).debouncedClosed = true → exec (.pullInExpiry k) s = .next ((({ s with
         channels := s.channels.set k { s.channel k with state := .hold, phaseExpiry := none }
         drives := s.drives.set k ⟨true, some ⟨s.time, (i.channelProfile k).period,
           (i.channelProfile k).period * Image.dutyOf i k / 100⟩⟩ } : State).notifyAwake
             (.contactor k (some (i.channelProfile k).role) .pullIn .hold .pullInEnd (s.channel k).stuck (s.channel k).dropped
               (s.channel k).welded false s.currentReport)).sequencerReport k .pullInEnd none)) ∧
       ((s.channel k).debouncedClosed = false → s.windowFollows → exec (.pullInExpiry k) s = .next ((({ s with
         channels := s.channels.set k { s.channel k with
           state := .dropout, phaseExpiry := some (s.time + millis (i.channelProfile k).dropout), stuck := true
           lastFault := some ⟨.stuck, s.time, .pullIn, s.currentReport⟩ }
         drives := s.drives.set k .off } : State).notifyAwake
           (.contactor k (some (i.channelProfile k).role) .pullIn .dropout .stuck true (s.channel k).dropped
             (s.channel k).welded false s.currentReport)).reportFault k .stuck .stuck))) ∧
     (∀ due, (s.channel k).state = .dropout → (s.channel k).phaseExpiry = some due → reached due s.time = true →
       ((s.channel k).debouncedClosed = false ∨ (s.channel k).welded = true → exec (.dropoutExpiry k) s =
         .next ((((({ s with channels := s.channels.set k { s.channel k with
           state := .opened, phaseExpiry := none, stuck := false, dropped := false
           welded := (s.channel k).debouncedClosed } } : State).syncWindow).notifyAwake
             (.contactor k (some (i.channelProfile k).role) .dropout .opened .dropoutEnd false false
               (s.channel k).debouncedClosed false s.currentReport))).sequencerReport k .dropoutEnd none)) ∧
       ((s.channel k).debouncedClosed = true → (s.channel k).welded = false → exec (.dropoutExpiry k) s =
         .next ((((({ s with channels := s.channels.set k { s.channel k with
           state := .opened, phaseExpiry := none, stuck := false, dropped := false, welded := true
           lastFault := some ⟨.welded, s.time, .dropout, s.currentReport⟩ } } : State).syncWindow).notifyAwake
             (.contactor k (some (i.channelProfile k).role) .dropout .opened .dropoutEnd false false true false
               s.currentReport))).reportFault k .welded .dropoutEnd))) ∧
     (∀ p, (s.channel k).state = .hold → (s.drives.get k).pwm = some p →
       (reached (p.start + micros p.period) s.time = true → exec (.holdPwmPeriod k) s = .next { s with
         drives := s.drives.set k ⟨true, some ⟨s.time, (i.channelProfile k).period,
           (i.channelProfile k).period * Image.dutyOf i k / 100⟩⟩ }) ∧
       (reached (p.start + micros p.period) s.time = false → (s.drives.get k).on = true → p.onTime < p.period →
         reached (p.start + micros p.onTime) s.time = true → exec (.holdPwmPeriod k) s =
           .next { s with drives := s.drives.set k ⟨false, some p⟩ }))) ∧
  (∀ (s : State) (window : Window → State), window = (fun w => { s with window := w }) →
    (s.allOpen = true → s.window.armed = true →
      s.syncWindow = window ⟨false, none, s.window.earlyIsWmin, none, none, 0⟩) ∧
    (s.allOpen = true ↔ ∀ k, (s.channel k).state = .opened) ∧
    (s.allOpen = !s.window.armed → s.syncWindow = s) ∧
    (∀ i, s.image = some i → s.allOpen = false → s.window.armed = false →
      s.syncWindow = window ⟨true, some s.time, true, some (s.time + millis i.shared.wmax), none, 0⟩) ∧
    (∀ (i : Image) (k : ChannelId), Image.dutyOf i k = if k ≠ .K1 ∧ (i.channelProfile k).linked = true
      then (i.channelProfile .K1).duty else (i.channelProfile k).duty))

/-- R102, R103, R109: while the oscillator runs a new level is debounced, and one that equals the debounced feedback ends the
debounce. At the expiry the debounced feedback takes the level; outside the reset settle, the loss of it in HOLD is DROPPED, its
appearance in OPEN sets WELDED and its end clears it. The settle expiry judges a closed feedback of an OPEN channel. While
UNCONFIGURED the debounce is 15 ms and the notice names no role (R100, R113).
R110, R113: the last fault is recorded, the change is noticed and reported to the Sequencer; what the Sequencer and the fault action
then do is SequencerSteps. The model's choice (entry 20, DEDUCED): the CONTACTOR notice comes before what the Sequencer makes of it. -/
def Obligations.FeedbackIsJudged : Prop :=
  ∀ (s : State) (k : ChannelId) (debounce : Nat) (role : Option Role), s.held = false →
    (∀ i, s.image = some i → debounce = (i.channelProfile k).debounce ∧ role = some (i.channelProfile k).role) →
    (s.image = none → debounce = 15 ∧ role = none) →
    (∀ (closed : Bool) u, u = { s with pins := { s.pins with kfb := s.pins.kfb.set k closed } } →
      (s.oscillator = false ∨ closed = (s.channel k).rawClosed → exec (.feedbackChange k closed) s = .next u) ∧
      (s.oscillator = true → closed ≠ (s.channel k).rawClosed → exec (.feedbackChange k closed) s = .next { u with
        channels := s.channels.set k { s.channel k with
          rawClosed := closed
          debounceExpiry := if closed = (s.channel k).debouncedClosed then none
            else some (s.time + millis debounce) } })) ∧
    (∀ (due : Instant) (u : State) (c : Channel), (s.channel k).debounceExpiry = some due → reached due s.time = true →
      c = { s.channel k with debouncedClosed := (s.channel k).rawClosed, debounceExpiry := none } →
      u = { s with channels := s.channels.set k c } → (s.channel k).rawClosed ≠ (s.channel k).debouncedClosed →
      ((s.channel k).settleExpiry ≠ none ∨ (s.channel k).state = .pullIn ∨ (s.channel k).state = .dropout →
        exec (.debounceExpiry k) s = .next u) ∧
      ((s.channel k).settleExpiry = none → (s.channel k).state = .hold → c.debouncedClosed = true →
        exec (.debounceExpiry k) s = .next u) ∧
      (∀ i, s.image = some i → (s.channel k).settleExpiry = none → (s.channel k).state = .hold → c.debouncedClosed = false →
        s.windowFollows → exec (.debounceExpiry k) s = .next ((({ u with
          channels := s.channels.set k { c with
            state := .dropout, phaseExpiry := some (s.time + millis (i.channelProfile k).dropout), dropped := true
            lastFault := some ⟨.dropped, s.time, .hold, s.currentReport⟩ }
          drives := s.drives.set k .off } : State).notifyAwake
            (.contactor k role .hold .dropout .dropped c.stuck true c.welded false
              s.currentReport)).reportFault k .dropped .dropped)) ∧
      ((s.channel k).settleExpiry = none → (s.channel k).state = .opened → c.debouncedClosed = true →
        exec (.debounceExpiry k) s = .next (u.weldInOpen k)) ∧
      ((s.channel k).settleExpiry = none → (s.channel k).state = .opened → c.debouncedClosed = false →
        (c.welded = false → exec (.debounceExpiry k) s = .next u) ∧
        (c.welded = true → exec (.debounceExpiry k) s = .next ((({ u with
          channels := s.channels.set k { c with welded := false } } : State).notifyAwake
            (.contactor k role .opened .opened .feedback c.stuck c.dropped false false
              s.currentReport)).sequencerReport k .feedback none)))) ∧
    (∀ due u, (s.channel k).settleExpiry = some due → reached due s.time = true →
      u = { s with channels := s.channels.set k { s.channel k with settleExpiry := none } } →
      ((s.channel k).debouncedClosed = true ∧ (s.channel k).state = .opened →
        exec (.settleExpiry k) s = .next (u.weldInOpen k)) ∧
      (¬((s.channel k).debouncedClosed = true ∧ (s.channel k).state = .opened) →
        exec (.settleExpiry k) s = .next u)) ∧
    ((s.channel k).welded = true → s.weldInOpen k = s) ∧
    ((s.channel k).welded = false → (s.channel k).state = .opened → s.weldInOpen k = ((({ s with
      channels := s.channels.set k { s.channel k with
        welded := true, lastFault := some ⟨.welded, s.time, .opened, s.currentReport⟩ } } : State).notifyAwake
          (.contactor k role .opened .opened .feedback (s.channel k).stuck (s.channel k).dropped
            true false s.currentReport)).reportFault k .welded .feedback))

/-- R121, R123: the precharge minimum expiry: with too few good words precharge goes on, and with enough it ends well: the last
precharge is written and, with an empty inhibit set, the POS channel gets a close request and the state becomes POS_CLOSING. At the
maximum expiry the Sequencer is FAILED with PRECHARGE_TIMEOUT, and no channel is left in PULL_IN or HOLD.
R117, R119, R120, R122, R123, R126, R128: what the Sequencer makes of a report of a channel, by its state: PULL_IN_END of NEG closes PRE,
that of PRE begins the precharge, that of POS opens PRE, and the DROPOUT_END of PRE ends in CONNECTED or FAILED; a fault of the table
makes it FAILED; in DISCONNECTING, NEG is opened once the others are OPEN, and with all OPEN the state is IDLE; every other report leaves
it as it is, so that a CONNECTED disconnected with POS, PRE and AUX, or all four, OPEN waits for a report (the model's choice, entry 47).
That a FEEDBACK report which finds all four channels OPEN makes the state IDLE, in DISCONNECTING or in TRIPPED with the disconnection
pending, and one that finds NEG alone closed in DISCONNECTING opens it, is the model's choice (entry 57).
R123, R124: entry to FAILED, and to TRIPPED by an action opening: the precharge is cleared, SEQUENCE is noticed, and every closed channel
gets an open request, in TRIPPED from DISCONNECTING alone. No rule orders these, nor the report of a fault and its action (entry 3); that
the state changes first is the model's choice (entry 44).
R120, R121: each word after the precharge start counts, and one that brings the count to N after the minimum expiry ends the precharge
well. No rule orders the Limit Evaluator and the Sequencer on a word (R56, entry 3).
That FAILED and IDLE leave the trip cause and the pending disconnect as they were is the model's reading (entry 25, DEDUCED).
A fault fires the action of its kind. R124: a fault that makes the Sequencer FAILED does so after its own action's opening too, in
TRIPPED; that this is so of a weld (entry 51, DEDUCED), AUX's too, is the model's reading. -/
def Obligations.SequencerSteps : Prop :=
  ((∀ (s : State) (i : Image) (due : Instant), s.held = false → s.image = some i → s.sequencer.state = .precharging →
      reached due s.time = true →
      (∀ u, s.sequencer.minimumTaken = false → s.sequencer.minimumExpiry = some due →
        u = { s with sequencer := { s.sequencer with minimumTaken := true } } →
        (s.sequencer.goodWords < i.shared.endCount → exec .prechargeMinimumExpiry s = .next u) ∧
        (∀ k start, i.shared.endCount ≤ s.sequencer.goodWords → s.inhibit = [] → s.channelOf .pos = some k →
          s.sequencer.prechargeStart = some start →
          exec .prechargeMinimumExpiry s = .next ((({ u with sequencer := { u.sequencer with
            lastPrecharge := some ⟨start, s.time, s.sequencer.goodWords⟩ } } : State).closeRequest k).setSequencer fun q =>
              { q with
                state := .posClosing, prechargeStart := none, minimumExpiry := none, maximumExpiry := none, goodWords := 0
                minimumTaken := false })) ∧
        (∀ start, i.shared.endCount ≤ s.sequencer.goodWords → s.inhibit ≠ [] → s.sequencer.prechargeStart = some start →
          exec .prechargeMinimumExpiry s = .next (({ u with sequencer := { u.sequencer with
            lastPrecharge := some ⟨start, s.time, s.sequencer.goodWords⟩ } } : State).enterFailed .inhibited none))) ∧
      (s.sequencer.maximumExpiry = some due → ∃ t, exec .prechargeMaximumExpiry s = .next t ∧
        t.sequencer.state = .failed ∧ t.sequencer.lastOutcome = some (.failed .prechargeTimeout, s.time) ∧
        t.sequencer.prechargeStart = none ∧ t.sequencer.minimumExpiry = none ∧ t.sequencer.maximumExpiry = none ∧
        t.sequencer.goodWords = 0 ∧ t.inhibit = s.inhibit ∧ ∀ k,
          ((s.channel k).state.isClosed = true → (t.channel k).state = .dropout ∧ t.drives.get k = .off) ∧
          ((s.channel k).state.isClosed = false → t.channel k = s.channel k ∧ t.drives.get k = s.drives.get k))) ∧
   (∀ (s : State) (k : ChannelId) (reason : ChangeReason) (closing : Option RoundNumber) (i : Image) (role : Role)
       (state : SeqState) (faulty : FaultKind → Prop) (idle : State), s.image = some i → role = (i.channelProfile k).role →
     state = s.sequencer.state →
     faulty = (fun f => match f with
       | .stuck => reason = .stuck ∧ (state = .negClosing ∧ role = .neg ∨ state = .precharging ∧ role = .pre ∨
           state = .posClosing ∧ role = .pos ∨ state = .tripped ∧ role ≠ .aux)
       | .dropped => reason = .dropped ∧ ((state = .precharging ∨ state = .posClosing) ∧ (role = .neg ∨ role = .pre) ∨
           (state = .preReleasing ∨ state = .connected) ∧ (role = .neg ∨ role = .pos) ∨ state = .tripped ∧ role ≠ .aux)
       | .welded => reason = .feedback ∧ (s.channel k).welded = true ∧
           (state = .negClosing ∨ state = .precharging ∨ state = .posClosing ∨ state = .preReleasing)) →
     idle = ({ s with sequencer := { s.sequencer with state := .idle, lastOutcome := some (.disconnected, s.time) } }
       : State).notifyAwake (.sequence .disconnected s.time (some state) none none none none) →
     (∀ f, faulty f → s.sequencerReport k reason closing = s.enterFailed (.fault f k) closing) ∧
     (state = .idle ∨ state = .failed → s.sequencerReport k reason closing = s) ∧
     (state = .connected → (∀ f, ¬faulty f) → s.sequencerReport k reason closing = s) ∧
     (state = .negClosing ∨ state = .precharging ∨ state = .posClosing ∨ state = .preReleasing →
       (∀ f, ¬faulty f) → ¬(reason = .pullInEnd ∧ (state = .negClosing ∧ role = .neg ∨ state = .precharging ∧ role = .pre ∨
         state = .posClosing ∧ role = .pos) ∨ reason = .dropoutEnd ∧ state = .preReleasing ∧ role = .pre) →
       s.sequencerReport k reason closing = s) ∧
     (state = .negClosing → reason = .pullInEnd → role = .neg →
       (s.inhibit ≠ [] → s.sequencerReport k reason closing = s.enterFailed .inhibited closing) ∧
       (∀ j, s.inhibit = [] → s.channelOf .pre = some j → s.sequencerReport k reason closing =
         (s.closeRequest j).setSequencer fun q => { q with state := .precharging })) ∧
     (state = .precharging → reason = .pullInEnd → role = .pre → s.sequencerReport k reason closing =
       { s with sequencer := { s.sequencer with
         prechargeStart := some s.time, minimumExpiry := some (s.time + millis i.shared.prechargeMinimum)
         maximumExpiry := some (s.time + millis i.shared.prechargeMaximum), goodWords := 0, minimumTaken := false } }) ∧
     (∀ j, state = .posClosing → reason = .pullInEnd → role = .pos → s.channelOf .pre = some j →
       s.sequencerReport k reason closing =
         (s.openRequest j .sequencer closing).setSequencer fun q => { q with state := .preReleasing }) ∧
     (state = .preReleasing → reason = .dropoutEnd → role = .pre →
       ((s.channel k).welded = true → s.sequencerReport k reason closing = s.enterFailed (.fault .welded k) closing) ∧
       ((s.channel k).welded = false → s.sequencerReport k reason closing =
         ({ s with sequencer := { s.sequencer with state := .connected, lastOutcome := some (.connected, s.time) } }
           : State).notifyAwake (.sequence .connected s.time none s.sequencer.lastPrecharge none none
             (some s.currentReport)))) ∧
     (state = .disconnecting →
       (s.allOpen = true → s.sequencerReport k reason closing = idle) ∧
       (∀ j, s.channelOf .neg = some j → (s.channel j).state.isClosed = true → (∀ h, h ≠ j → s.isOpen h = true) →
         s.sequencerReport k reason closing = s.openRequest j .sequencer closing) ∧
       (∀ j, s.allOpen = false → s.channelOf .neg = some j → (s.channel j).state.isClosed = false ∨
         (∃ h, h ≠ j ∧ s.isOpen h = false) → s.sequencerReport k reason closing = s)) ∧
     (state = .tripped → (∀ f, ¬faulty f) → s.sequencerReport k reason closing =
       if s.sequencer.disconnectPending = true ∧ s.allOpen = true then idle else s)) ∧
   (∀ (s : State) (reason : FailReason) (cause : Cause) (closing : Option RoundNumber) (left : SeqState) (q : Sequencer),
     left = s.sequencer.state →
     q = { s.sequencer with
       prechargeStart := none, minimumExpiry := none, maximumExpiry := none, goodWords := 0, minimumTaken := false } →
     (∃ order : List (State → State), order.Perm
       ((fun t => ({ t with sequencer := { t.sequencer with lastOutcome := some (.failed reason, t.time) } }
         : State).notifyAwake (.sequence (.failed reason) t.time (some left) none none
           (if reason = .prechargeTimeout then some s.sequencer.goodWords else none) (some t.currentReport))) ::
         s.closedChannels.map fun k t => t.openRequest k .sequencer closing) ∧
       s.enterFailed reason closing = order.foldl (fun t f => f t)
         { s with sequencer := { q with state := .failed }, free := s.free + order.length }) ∧
     (left = .idle ∨ left = .tripped → s.actionOpening cause closing = s) ∧
     (left ≠ .idle → left ≠ .tripped → ∃ order : List (State → State), order.Perm
       ((fun t => ({ t with sequencer := { t.sequencer with lastOutcome := some (.tripped, t.time) } }
         : State).notifyAwake (.sequence .tripped t.time (some left) none (some cause) none none)) ::
         if left = .disconnecting then s.closedChannels.map fun k t => t.openRequest k .sequencer closing else []) ∧
       s.actionOpening cause closing = order.foldl (fun t f => f t) { s with
         sequencer := { q with
           state := .tripped, tripCause := some cause, disconnectPending := decide (left = .disconnecting) }
         free := s.free + order.length }) ∧
     (∀ k f change, (s.faultAction f = none →
         s.reportFault k f change = ({ s with free := s.free + 1 } : State).sequencerReport k change none) ∧
       (s.faultAction f ≠ none → ∀ u, u = ({ s with free := s.free + 2 } : State) →
         s.reportFault k f change = (u.sequencerReport k change none).fire (s.faultAction f) (.contactor k f) none ∨
         s.reportFault k f change =
           (u.fire (s.faultAction f) (.contactor k f) none).faultReport s.sequencer.state k change))) ∧
   (∀ (s u w : State) (i : Image) (start : Instant) (value : BitVec 24) (sequence : Byte) (gap : Bool) (words : Nat),
     s.image = some i → s.sequencer.state = .precharging →
     words = (if i.shared.endCurrent < value.toInt.natAbs then 0 else if gap then 1 else min (s.sequencer.goodWords + 1) 64) →
     u = { s with sequencer := { s.sequencer with goodWords := words } } →
     w = { s with sequencer := { s.sequencer with
       lastPrecharge := some ⟨start, s.time, s.sequencer.goodWords⟩ } } →
     (s.sequencer.prechargeStart = none → s.prechargeWord value gap = s) ∧
     (s.sequencer.prechargeStart = some start →
       (s.sequencer.minimumTaken = false ∨ words < i.shared.endCount → s.prechargeWord value gap = u) ∧
       (s.sequencer.minimumTaken = true → i.shared.endCount ≤ words → s.prechargeWord value gap = u.prechargeEndsWell) ∧
       (s.inhibit ≠ [] → s.prechargeEndsWell = w.enterFailed .inhibited none) ∧
       (∀ k, s.inhibit = [] → s.channelOf .pos = some k → s.prechargeEndsWell = (w.closeRequest k).setSequencer fun q =>
         { q with
           state := .posClosing, prechargeStart := none, minimumExpiry := none, maximumExpiry := none, goodWords := 0
           minimumTaken := false })) ∧
     (s.judgesWords = false →
       s.handWord value sequence gap = ({ s with free := s.free + 1 } : State).prechargeWord value gap) ∧
     (s.judgesWords = true → ∀ v, v = ({ s with free := s.free + 2 } : State) →
       s.handWord value sequence gap = (v.evaluateWord value sequence v.time).prechargeWord value gap ∨
       s.handWord value sequence gap = (v.prechargeWord value gap).evaluateWord value sequence v.time)) ∧
   (∀ (s : State) (value : BitVec 24) (sequence : Byte) (gap : Bool), s.sequencer.state ≠ .precharging →
     s.handWord value sequence gap =
       if s.judgesWords = true then ({ s with free := s.free + 1 } : State).evaluateWord value sequence s.time else s)) ∧
  (∀ (s : State) (f : Sequencer → Sequencer) (i : Image) (fault : FaultKind), s.image = some i →
    s.setSequencer f = { s with sequencer := f s.sequencer } ∧
    s.faultAction fault = match fault with
      | .stuck => i.shared.stuckAction
      | .dropped => i.shared.droppedAction
      | .welded => i.shared.weldAction) ∧
  (∀ (s : State) (k : ChannelId) (reason : ChangeReason) (before : SeqState) (i : Image) (role : Role)
      (fails : FaultKind → Prop), s.image = some i → role = (i.channelProfile k).role →
    fails = (fun f => match f with
      | .stuck => reason = .stuck ∧ (before = .negClosing ∧ role = .neg ∨ before = .precharging ∧ role = .pre ∨
          before = .posClosing ∧ role = .pos ∨ before = .tripped ∧ role ≠ .aux)
      | .dropped => reason = .dropped ∧ ((before = .precharging ∨ before = .posClosing) ∧ (role = .neg ∨ role = .pre) ∨
          (before = .preReleasing ∨ before = .connected) ∧ (role = .neg ∨ role = .pos) ∨ before = .tripped ∧ role ≠ .aux)
      | .welded => (s.channel k).welded = true ∧ (reason = .feedback ∧
          (before = .negClosing ∨ before = .precharging ∨ before = .posClosing ∨ before = .preReleasing) ∨
          reason = .dropoutEnd ∧ before = .preReleasing ∧ role = .pre)) →
    (∀ f, s.sequencer.state = .tripped → fails f → s.faultReport before k reason = s.enterFailed (.fault f k) none) ∧
    (s.sequencer.state ≠ .tripped ∨ (∀ f, ¬fails f) → s.faultReport before k reason = s.sequencerReport k reason none))

/-! ### Resets and start-up -/

/-- R2, R171, R182: POR, and a pin reset, which RESET# low for 10 µs begins, give every block but the Image Store its reset values; a
pin reset holds them, with no start-up and no settle running, until RESET# returns high, which begins start-up; a shorter pulse
leaves every block as it is. KDRn is low, and HSDO not driven, while RESET# is low. The model's choices: that a command changes the pins alone
while they are held is entry 4; that a RESET# that is not high at POR counts its 10 µs from the start is entry 30; that an exchange cut
by a reset goes on shifting FFh is entry 29; the levels kept at the pins are entry 12.
While the blocks are held, every command but POR and RESET_HIGH changes the pins and the level of HSEL# alone; on an empty queue nothing
passes; neither a chain byte, nor a bit of CSDI, nor an edge of HSCK is taken. -/
def Obligations.ResetsAct : Prop :=
  (∀ s : State,
     (s.pins.reset = .high → exec .por s =
       .next (State.afterReset s.store s.pins s.link.exchange.isSome s.free s.pending)) ∧
     (s.pins.reset ≠ .high → exec .por s = .next (State.afterReset s.store { s.pins with reset := .low 0 }
       s.link.exchange.isSome s.free s.pending)) ∧
     (s.pins.reset = .high →
       exec .resetLow s = .next { s with pins := { s.pins with reset := .low 0 } } ∧ exec .resetHigh s = .next s) ∧
     (∀ n, s.pins.reset = .low n →
       s.passMicrosecond.pins = { s.pins with reset := .low (min (n + 1) 10) } ∧
       exec .resetLow s = .next s ∧ exec .resetHigh s = .next { s with pins := { s.pins with reset := .high } } ∧
       (n < 10 → exec .pinReset s = .next s) ∧
       (∀ u, 10 ≤ n →
         u = State.afterReset s.store { s.pins with reset := .held } s.link.exchange.isSome s.free s.pending →
         exec .pinReset s = .next { u with
           startup := none
           channels := ⟨{ u.channels.k1 with settleExpiry := none, debounceExpiry := none },
             { u.channels.k2 with settleExpiry := none, debounceExpiry := none },
             { u.channels.k3 with settleExpiry := none, debounceExpiry := none },
             { u.channels.k4 with settleExpiry := none, debounceExpiry := none }⟩ })) ∧
     (s.pins.reset = .held → exec .resetLow s = .next s ∧ exec .resetHigh s = .next (State.afterReset s.store
       { s.pins with reset := .high } s.link.exchange.isSome s.free s.pending)) ∧
     (∀ k, s.kdr k = true → s.pins.reset = .high) ∧ (s.pins.reset ≠ .high → ∀ clocked, s.hsdo clocked = none) ∧
     (∀ (store : ImageStore) (pins : Pins) (selected : Bool) (free : Nat) (pending : List Instr),
       State.afterReset store pins selected free pending = { State.reset with
         store := store, pins := pins, free := free, pending := pending
         channels := ⟨.reset pins.kfb.k1, .reset pins.kfb.k2, .reset pins.kfb.k3, .reset pins.kfb.k4⟩
         link := { State.reset.link with exchange := if selected then some ⟨.shut, 0xFF#8, none, [], false⟩ else none } })) ∧
  (∀ (s : State) (pins : Pins → State), s.held = true → pins = (fun p => { s with pins := p }) →
    (∀ k closed, exec (.feedbackChange k closed) s = .next (pins { s.pins with kfb := s.pins.kfb.set k closed })) ∧
    (∀ n high, exec (.wakeInputChange n high) s = .next (pins { s.pins with wake := s.pins.wake.set n high })) ∧
    (∀ active, exec (.tampInputChange active) s = .next (pins { s.pins with tamp := active }) ∧
      exec (.svcInputChange active) s = .next (pins { s.pins with svc := active })) ∧
    (∀ i, i ≠ .por → i ≠ .resetHigh → i ≠ .exchangeBegin → (∀ b, i ≠ .exchangeEnd b) →
      (∀ k b, i ≠ .feedbackChange k b) → (∀ n b, i ≠ .wakeInputChange n b) → (∀ b, i ≠ .tampInputChange b) →
      (∀ b, i ≠ .svcInputChange b) → exec i s = .next s) ∧
    (s.heldIsShut → exec .exchangeBegin s = .next { s with link := { s.link with
        exchange := if s.link.exchange = none then some ⟨.shut, 0xFF#8, none, [], false⟩ else s.link.exchange } } ∧
      ∀ b, exec (.exchangeEnd b) s = .next { s with link := { s.link with exchange := none } }) ∧
    (s.pending = [] → step s = .next s) ∧
    (∀ c tenth b bit, s.receiveByte c tenth b = s ∧ s.receiveBit bit = s ∧ s.clockRises bit = s ∧ s.clockFalls = s))

/-- R26, R155, R168, R171: start-up selection makes every slot that is WRITING, or VALID with a wrong check word, INVALID, loads the
tamper latch, opens the link and begins the two filters; with a VALID slot at or above the floor the bridge is RUN with the one of
the highest epoch, A at equal epochs, and with none it stays UNCONFIGURED. A ROUSE joins each chain's internal queue.
That chain A comes before chain B is the model's choice (entry 42).
R26, R155: the bridge becomes RUN with the image, the epoch and the slot of the selection, every limit entry NORMAL with run count 0 and
the Node Tables built, chain A first: an UNSURVEYED entry for each planned position, and a survey requested where there is one. The
cursor begins with step 0 at the instant; the surveys that are pending begin, chain A first. -/
def Obligations.StartupSelects : Prop :=
  ((∀ (s u : State), s.held = false → s.startup ≠ none → s.update = UpdateEngine.reset → s.link.state = .shut →
     u = { s with
       store := s.store.examined, startup := none
       link := { s.link with
         state := .opened, queue := [], owed := 0, lastDiscarded := false, lastCheckFailed := false
         unsolicitedDiscard := false, resetExpiry := none, hwake := false }
       tampFilter := if s.pins.tamp then ⟨true, false, some true, some (s.time + 1000#32)⟩ else ⟨true, false, none, none⟩
       svcFilter := if s.pins.svc then ⟨true, false, some true, some (s.time + 1000#32)⟩ else ⟨true, false, none, none⟩
       update := { s.update with latch := s.store.tamperFlag } } →
     (s.store.examined.select = none → exec .startupSelectionEnd s =
       .next (((u.joinInternal .A .rouse).joinInternal .B .rouse).finish)) ∧
     (∀ k, s.store.examined.select = some k → exec .startupSelectionEnd s = .next
       ((((((({ (u.startRun k) with sleep := { u.sleep with op := .run } } : State).startCursor).joinInternal .A
         .rouse).joinInternal .B .rouse).pendingSurveys)).finish))) ∧
   (∀ (s : State) (k : Slot), (s.takeImage k).working = some ⟨(s.store.slot k).image, (s.store.slot k).epoch, k⟩) ∧
   (∀ (x : ImageStore),
     (x.select = none ↔ ∀ k, ¬((x.slot k).state = .valid ∧ x.floor ≤ (x.slot k).epoch)) ∧
     (∀ k, x.select = some k → (x.slot k).state = .valid ∧ x.floor ≤ (x.slot k).epoch ∧
       ∀ j, (x.slot j).state = .valid → x.floor ≤ (x.slot j).epoch → (x.slot j).epoch ≤ (x.slot k).epoch) ∧
     (x.slotA.state = .valid → x.slotB.state = .valid → x.floor ≤ x.slotA.epoch → x.slotA.epoch = x.slotB.epoch →
       x.select = some .A) ∧
     (∀ k, ((x.slot k).state = .writing → (x.examined.slot k) = { x.slot k with state := .invalid }) ∧
       ((x.slot k).state = .valid → checkWord x.identity (x.slot k).epoch (x.slot k).image ≠ (x.slot k).check →
         (x.examined.slot k) = { x.slot k with state := .invalid }) ∧
       ((x.slot k).state = .valid → checkWord x.identity (x.slot k).epoch (x.slot k).image = (x.slot k).check →
         (x.examined.slot k) = x.slot k) ∧
       ((x.slot k).state = .erased ∨ (x.slot k).state = .invalid → (x.examined.slot k) = x.slot k)))) ∧
  (∀ (s u : State) (k : Slot) (x : SlotContents), x = s.store.slot k →
    u = { s with working := some ⟨x.image, x.epoch, k⟩, limits := List.replicate 64 ⟨.normal, 0, none⟩ } →
    s.startRun k = (u.rebuildNodes .A).rebuildNodes .B) ∧
  (∀ (v : State) (c : Chain) (i : Image) (o : Order) (p : ChainPort), p = v.port c → v.image = some i →
    (p.table = [] → v.sleep.op ≠ .run → v.rebuildNodes c = v.setPort c { p with
      table := (i.plan c).map fun x => ⟨x.position, x.cells, x.temps, .unsurveyed, none, none, none, 0, false⟩
      surveyPending := if i.plan c = [] then p.surveyPending else true }) ∧
    v.joinInternal c o = v.setPort c { p with internal := p.internal ++ [o] } ∧ Order.rouse = ⟨0, 0xF3#8, [], .rouse⟩ ∧
    v.startCursor = State.beginStep { v with cursor := ⟨.running, 0, v.time, 0#32⟩ } ∧
    v.pendingSurveys = (v.pendingSurvey .A).pendingSurvey .B ∧
    (p.surveyPending = false ∨ p.survey ≠ .idle ∨ v.sleep.op ≠ .run ∨ p.run ≠ .running → v.pendingSurvey c = v) ∧
    (∀ e rest, p.surveyPending = true → p.survey = .idle → v.sleep.op = .run → p.run = .running → p.table = e :: rest →
      v.pendingSurvey c = v.setPort c { p with
        surveyPending := false, aligned := [], notAligned := [], survey := .echoing e.position
        internal := p.internal ++ [⟨e.position, 0xF0#8, [], .echo⟩] }))

/-! ### Contactor drivers -/

/-- R104, R131: a close request is refused outside RUN, during the reset settle and in DROPOUT, and finds PULL_IN and HOLD
closed already, without a change; in OPEN the channel enters PULL_IN with the drive fully on, the first channel to leave OPEN
arms the window, and CONTACTOR is noticed. -/
def Obligations.CloseRequestsPullIn : Prop :=
  ∀ (s : State) (k : ChannelId),
    (s.sleep.op ≠ .run ∨ (s.channel k).settleExpiry ≠ none → s.closeAnswer k = .refused ∧ s.closeRequest k = s) ∧
    (s.sleep.op = .run → (s.channel k).settleExpiry = none →
      ((s.channel k).state = .dropout → s.closeAnswer k = .refused ∧ s.closeRequest k = s) ∧
      ((s.channel k).state.isClosed = true → s.closeAnswer k = .already ∧ s.closeRequest k = s) ∧
      (∀ i, s.image = some i → (s.channel k).state = .opened → s.windowFollows →
        s.closeAnswer k = .taken ∧
        s.closeRequest k = ({ s with
          channels := s.channels.set k { s.channel k with
            state := .pullIn, phaseExpiry := some (s.time + millis (i.channelProfile k).pullIn) }
          drives := s.drives.set k ⟨true, none⟩
          window :=
            if s.allOpen then ⟨true, some s.time, true, some (s.time + millis i.shared.wmax), none, 0⟩ else s.window }
          : State).notify (.contactor k (some (i.channelProfile k).role) .opened .pullIn .close (s.channel k).stuck
            (s.channel k).dropped (s.channel k).welded false s.currentReport)))

/-- R105, R111, R113: an open request takes a channel in PULL_IN or HOLD to DROPOUT with the drive off and the opening recorded,
and CONTACTOR is noticed where notices are offered; an opening under load requests a capture where the profile says so. In
DROPOUT and OPEN it has no effect.
R59, R112: it is under load exactly when the role is NEG or POS and a latest current is present whose magnitude exceeds the
break current; with the stream ABSENT there is no latest current.
A request made while a round closes hands that round on to the capture. That the CONTACTOR notice comes before the capture and its notice
is the model's choice (entry 45).
The role, the working image and epoch, and the current report that the channel's events show. -/
def Obligations.OpenRequestsDropOut : Prop :=
  ((∀ (s : State) (k : ChannelId) (by_ : Requester) (closing : Option RoundNumber),
      ((s.channel k).state.isClosed = false → s.openRequest k by_ closing = s) ∧
      (∀ i u, s.image = some i → (s.channel k).state.isClosed = true → s.windowFollows →
        u = ({ s with
          channels := s.channels.set k { s.channel k with
            state := .dropout, phaseExpiry := some (s.time + millis (i.channelProfile k).dropout)
            lastOpening := some ⟨s.time, by_, (s.channel k).state, s.currentReport, s.underLoad k⟩ }
          drives := s.drives.set k .off } : State).notifyAwake
            (.contactor k (some (i.channelProfile k).role) (s.channel k).state .dropout (.openRequest by_) (s.channel k).stuck
              (s.channel k).dropped (s.channel k).welded (s.underLoad k) s.currentReport) →
        s.openRequest k by_ closing =
          if s.underLoad k = true ∧ i.shared.captureOnUnderLoad = true then u.requestCapture (.underLoad k) closing else u)) ∧
   (∀ (s : State) (k : ChannelId) (i : Image), s.image = some i →
      (s.underLoad k = true ↔
        ((i.channelProfile k).role = .neg ∨ (i.channelProfile k).role = .pos) ∧ s.stream.state ≠ .absent ∧
        ∃ c, s.stream.history.getLast? = some c ∧ i.shared.breakCurrent < c.value.toInt.natAbs))) ∧
  (∀ (s : State) (k : ChannelId), s.role k = (s.image.map fun i => (i.channelProfile k).role) ∧
    s.currentReport = ⟨if s.stream.state = .absent then none else
      s.stream.history.getLast?.map fun x => ⟨x.value, x.sequence, x.arrival⟩, s.stream.state⟩ ∧
    s.image = (s.working.map Working.image) ∧ (s.working = none → s.workingEpoch = 0#32) ∧
    (∀ w, s.working = some w → s.workingEpoch = w.epoch))

/-! ### Connection Sequencer, inhibit set and window -/

/-- R104, R113, R118, R131: CONNECT, the first row of the table that applies; when it is accepted the ACCEPTED is offered, the
Sequencer becomes NEG_CLOSING, the NEG channel enters PULL_IN with the drive on, and the window is armed. -/
def Obligations.ConnectAnswers : Prop :=
  ∀ (s : State) (tag : Byte), s.linkReady →
    (s.sleep.op ≠ .run ∨ s.sequencer.state ≠ .idle →
      exec (.connect tag) s = .next (s.answered tag .refusedState (.reason .state))) ∧
    (s.sleep.op = .run → s.sequencer.state = .idle →
      (s.inhibit ≠ [] → exec (.connect tag) s = .next (s.answered tag .refusedState (.reason .inhibited))) ∧
      (s.inhibit = [] → s.stream.state ≠ .live →
        exec (.connect tag) s = .next (s.answered tag .refusedState (.reason .current))) ∧
      (s.inhibit = [] → s.stream.state = .live → (∃ k, (s.channel k).welded = true) →
        exec (.connect tag) s = .next (s.answered tag .refusedState (.reason .welded))) ∧
      (s.inhibit = [] → s.stream.state = .live → (∀ k, (s.channel k).welded = false) →
        (∃ k, (s.channel k).settleExpiry ≠ none) →
        exec (.connect tag) s = .next (s.answered tag .refusedState (.reason .settle))) ∧
      (∀ i k, s.inhibit = [] → s.stream.state = .live → (∀ k, (s.channel k).welded = false) →
        (∀ k, (s.channel k).settleExpiry = none) → s.image = some i → s.channelOf .neg = some k → s.idleIsOpen →
        s.windowFollows →
        exec (.connect tag) s = .next (({ s with
          sequencer := { s.sequencer with state := .negClosing }
          channels := s.channels.set k { s.channel k with
            state := .pullIn, phaseExpiry := some (s.time + millis (i.channelProfile k).pullIn) }
          drives := s.drives.set k ⟨true, none⟩
          window := ⟨true, some s.time, true, some (s.time + millis i.shared.wmax), none, 0⟩ } : State).answered tag
            .accepted .none |>.notify (.contactor k (some .neg) .opened .pullIn .close (s.channel k).stuck
              (s.channel k).dropped (s.channel k).welded false s.currentReport))))

/-- R125: DISCONNECT in every state of the Sequencer.
The model's choices: the openings come before the Sequencer takes its new state (entry 31, DEDUCED); the trip cause and
disconnect-pending keep their values on leaving TRIPPED (entry 25, DEDUCED); DISCONNECT in CONNECTED that finds POS, PRE and AUX OPEN
already makes no report, so NEG, or with all four OPEN the change to IDLE, waits for one (entry 47).
R125, R128: in an abort the REPLY comes first and SEQUENCE ABORTED is noticed; no rule orders that notice and the openings (entry 3).
The openings: each channel of the list gets its open request, in an order that is free (entry 3); the channels are those in PULL_IN or
HOLD, of the roles named; the channel of a role is the one that the working image gives it. -/
def Obligations.DisconnectAnswers : Prop :=
  (∀ (s : State) (tag : Byte), s.linkReady →
     (s.sequencer.state = .idle → exec (.disconnect tag) s = .next (s.answered tag .done .none)) ∧
     (s.sequencer.state = .disconnecting → exec (.disconnect tag) s = .next (s.answered tag .accepted .none)) ∧
     (s.sequencer.state = .connected → exec (.disconnect tag) s =
       .next (((s.answered tag .accepted .none).openRequests (s.closedOf [.pos, .aux]) .sequencer none).setSequencer fun q =>
         { q with state := .disconnecting })) ∧
     (s.sequencer.state = .negClosing ∨ s.sequencer.state = .precharging ∨ s.sequencer.state = .posClosing ∨
         s.sequencer.state = .preReleasing → ∃ order : List (State → State), order.Perm
       ((fun t => ({ t with sequencer := { t.sequencer with lastOutcome := some (.aborted, t.time) } }
         : State).notifyAwake (.sequence .aborted t.time (some s.sequencer.state) none none none none)) ::
         s.closedChannels.map fun k t => t.openRequest k .sequencer none) ∧
       exec (.disconnect tag) s = .next ((order.foldl (fun t f => f t)
         (({ s with free := s.free + order.length } : State).answered tag .accepted .none)).setSequencer fun q =>
           { q with
             state := .disconnecting, prechargeStart := none, minimumExpiry := none, maximumExpiry := none, goodWords := 0
             minimumTaken := false })) ∧
     (s.sequencer.state = .tripped ∨ s.sequencer.state = .failed → s.allOpen = true → exec (.disconnect tag) s =
       .next (({ s with sequencer := { s.sequencer with
         state := .idle, lastOutcome := some (.disconnected, s.time) } } : State).answered tag .done .none |>.notifyAwake
           (.sequence .disconnected s.time (some s.sequencer.state) none none none none))) ∧
     (s.sequencer.state = .tripped ∨ s.sequencer.state = .failed → s.allOpen = false → exec (.disconnect tag) s =
       .next (((s.answered tag .accepted .none).openRequests s.closedChannels .sequencer none).setSequencer fun q =>
         { q with state := .disconnecting }))) ∧
  (∀ (s : State) (l : List ChannelId) (by_ : Requester) (closing : Option RoundNumber), ∃ order : List ChannelId,
    order.Perm l ∧ s.openRequests l by_ closing =
      order.foldl (fun t k => t.openRequest k by_ closing) { s with free := s.free + l.length }) ∧
  (∀ (s : State) (roles : List Role) (k : ChannelId),
    (k ∈ s.closedOf roles ↔ ((s.channel k).state = .pullIn ∨ (s.channel k).state = .hold) ∧
      ∃ r ∈ roles, s.channelOf r = some k) ∧
    (roles.Nodup → (s.closedOf roles).Nodup) ∧
    (k ∈ s.closedChannels ↔ (s.channel k).state = .pullIn ∨ (s.channel k).state = .hold) ∧ s.closedChannels.Nodup) ∧
  (∀ (s : State) (r : Role), (s.image = none → s.channelOf r = none) ∧
    (∀ i, s.image = some i → (s.channelOf r = none ↔ ∀ k, (i.channelProfile k).role ≠ r) ∧
      (∀ k, s.channelOf r = some k → (i.channelProfile k).role = r) ∧
      (∀ k, (i.channelProfile k).role = r → (∀ j, (i.channelProfile j).role = r → j = k) → s.channelOf r = some k)))

/-- R127: AUX_CLOSE is refused unless the Sequencer is CONNECTED and the inhibit set is empty; a close that the driver takes or
finds done is answered DONE, one that it refuses BUSY. AUX_OPEN is answered DONE, with an open request to a closed AUX channel.
No rule orders an answer and the CONTACTOR notice of its event (entry 3). -/
def Obligations.AuxAnswers : Prop :=
  ∀ (s : State) (tag : Byte), s.linkReady →
    (s.sequencer.state ≠ .connected →
      exec (.auxClose tag) s = .next (s.answered tag .refusedState (.reason .state))) ∧
    (s.sequencer.state = .connected → s.inhibit ≠ [] →
      exec (.auxClose tag) s = .next (s.answered tag .refusedState (.reason .inhibited))) ∧
    (∀ k, s.sequencer.state = .connected → s.inhibit = [] → s.channelOf .aux = some k →
      (s.closeAnswer k = .already → exec (.auxClose tag) s = .next (s.answered tag .done .none)) ∧
      (s.closeAnswer k = .refused → exec (.auxClose tag) s = .next (s.answered tag .busy .none)) ∧
      (∀ u, u = ({ s with free := s.free + 2 } : State) → s.closeAnswer k = .taken →
        exec (.auxClose tag) s = .next ((u.answered tag .done .none).closeRequest k) ∨
        exec (.auxClose tag) s = .next ((u.taken.closeRequest k).reply tag .done .none))) ∧
    (s.closedOf [.aux] = [] →
      exec (.auxOpen tag) s = .next (({ s with free := s.free + 1 } : State).answered tag .done .none)) ∧
    (∀ k u, u = ({ s with free := s.free + 2 } : State) → s.closedOf [.aux] = [k] →
      exec (.auxOpen tag) s = .next ((u.answered tag .done .none).openRequest k .sequencer none) ∨
      exec (.auxOpen tag) s = .next ((u.taken.openRequest k .sequencer none).reply tag .done .none))

/-- R130: ACK_TRIP: BAD_ARGUMENT for a kind or field out of range, NO_SUCH for a cause that the set does not hold, DONE with the
number of causes left where the condition of the cause is gone, and REFUSED_STATE otherwise; with the condition of each cause.
R185: the fields of a kind that has none are disregarded. The model's choice (entry 22, DEDUCED): kind LIMIT has one field, and the
second is disregarded too.
R185, 11.2.3: the cause that the bytes of each kind name. -/
def Obligations.AckTripAnswers : Prop :=
  (∀ (s : State) (tag kind field1 field2 : Byte), s.linkReady →
     (decodeCause kind field1 field2 = none → exec (.ackTrip tag kind field1 field2) s =
       .next (s.answered tag .badArgument .none)) ∧
     (decodeCause kind field1 field2 = none ↔
       ¬((kind = 1#8 ∧ field1.toNat ≤ 63) ∨ (kind = 2#8 ∧ field1.toNat ≤ 1 ∧ 1 ≤ field2.toNat ∧ field2.toNat ≤ 16) ∨
         kind = 3#8 ∨ kind = 4#8 ∨
         (kind = 5#8 ∧ 1 ≤ field1.toNat ∧ field1.toNat ≤ 4 ∧ 1 ≤ field2.toNat ∧ field2.toNat ≤ 3) ∨ kind = 6#8)) ∧
     (∀ c, decodeCause kind field1 field2 = some c →
       (c ∉ s.inhibit → exec (.ackTrip tag kind field1 field2) s = .next (s.answered tag .noSuch .none)) ∧
       (c ∈ s.inhibit → s.conditionGone c = false → exec (.ackTrip tag kind field1 field2) s =
         .next (s.answered tag .refusedState .none)) ∧
       (c ∈ s.inhibit → s.conditionGone c = true → exec (.ackTrip tag kind field1 field2) s =
         .next (({ s with inhibit := s.inhibit.filter fun d => d != c } : State).answered tag .done
           (.causesLeft (s.inhibit.filter fun d => d != c).length)))) ∧
     (∀ n, n < s.limits.length → (s.conditionGone (.limit n) = true ↔ ∃ x, s.limits[n]? = some x ∧ x.state = .normal)) ∧
     (∀ c p, s.conditionGone (.node c p) = true ↔ ∀ e, s.node c p = some e → e.state ≠ .lost) ∧
     (s.conditionGone .current = true ↔ s.stream.state = .live) ∧ s.conditionGone .supervision = true ∧
     (∀ k, s.conditionGone (.contactor k .stuck) = !(s.channel k).stuck ∧
       s.conditionGone (.contactor k .dropped) = !(s.channel k).dropped ∧
       s.conditionGone (.contactor k .welded) = !(s.channel k).welded) ∧
     (s.conditionGone .tamper = !s.update.latch)) ∧
  (∀ (a b : Byte) (c : Chain) (k : ChannelId) (f : FaultKind),
    (a.toNat ≤ 63 → decodeCause 1#8 a b = some (.limit a.toNat)) ∧
    (1 ≤ b.toNat → b.toNat ≤ 16 →
      decodeCause 2#8 (match c with | .A => 0#8 | .B => 1#8) b = some (.node c b.toNat)) ∧
    decodeCause 3#8 a b = some .current ∧ decodeCause 4#8 a b = some .supervision ∧
    decodeCause 5#8 (match k with | .K1 => 1#8 | .K2 => 2#8 | .K3 => 3#8 | .K4 => 4#8)
      (match f with | .stuck => 1#8 | .dropped => 2#8 | .welded => 3#8) = some (.contactor k f) ∧
    decodeCause 6#8 a b = some .tamper)

/-- R132: SUPERVISE is always answered DONE: DISARMED with no change, GOOD with a new reference, Wmin as early bound, a new
expiry and a fault count of 0, or EARLY or SEQUENCE, which is a supervision fault. R132 lets no elapsed time above Wmax arise, so
GOOD is stated up to Wmax.
The model's choices: no rule orders the answer and the notices of the fault (entry 3); the REPLY carries the number the request was
judged against (entry 34, DEDUCED); the count it shows for a fault is the one after the fault is handled, 0 after a loss
(entry 46).
The bounds Wmin and Wmax are those of the working image. The count after a fault: 0 where the fault reaches the limit, else one more. -/
def Obligations.SuperviseAnswers : Prop :=
  (∀ (s : State) (tag n : Byte), s.linkReady →
     (s.window.armed = false → exec (.supervise tag n) s =
       .next (s.answered tag .done (.supervision .disarmed s.window.faults (s.window.lastGood.map (· + 1#8))))) ∧
     (∀ reference bound, s.window.armed = true → s.window.reference = some reference →
       bound = (if s.window.earlyIsWmin then s.wmin * 1000 else 0) →
       (bound ≤ (s.time - reference).toNat → (s.time - reference).toNat ≤ s.wmax * 1000 →
         s.window.lastGood = none ∨ s.window.lastGood = some (n - 1#8) →
         exec (.supervise tag n) s = .next (({ s with window := { s.window with
           reference := some s.time, earlyIsWmin := true, expiry := some (s.time + millis s.wmax), lastGood := some n
           faults := 0 } } : State).answered tag .done (.supervision .good 0 (s.window.lastGood.map (· + 1#8))))) ∧
       (∀ u j f, u = ({ s with free := s.free + 2 } : State) →
         ((s.time - reference).toNat < bound ∧ j = .early ∧ f = .early) ∨
         (bound ≤ (s.time - reference).toNat ∧ s.window.lastGood ≠ none ∧ s.window.lastGood ≠ some (n - 1#8) ∧
           j = .sequence ∧ f = .sequence) →
         exec (.supervise tag n) s = .next ((u.answered tag .done (.supervision j (s.faultsAfter j)
           (s.window.lastGood.map (· + 1#8)))).superviseFault f) ∨
         exec (.supervise tag n) s = .next ((u.taken.superviseFault f).reply tag .done (.supervision j (s.faultsAfter j)
           (s.window.lastGood.map (· + 1#8))))))) ∧
  (∀ (s : State) (i : Image) (j : Judgement), s.image = some i →
    s.wmin = i.shared.wmin ∧ s.wmax = i.shared.wmax ∧
    (j = .early ∨ j = .sequence → s.faultsAfter j =
      if i.shared.faultLimit ≤ s.window.faults + 1 then 0 else s.window.faults + 1))

/-- R133: a supervision fault below the limit: it is noticed, the reference becomes the instant with early bound 0, and the
fault count rises; one that reaches the limit is noticed as a loss too, fires the supervision action and clears the count. The
arrival of the expiry with the window armed is the fault TIMEOUT.
That SUPERVISION_FAULT shows the raised count even where the count is cleared is the model's choice (entry 46). -/
def Obligations.SupervisionFaults : Prop :=
  ∀ (s : State) (kind : SupervisionFault) (i : Image) (u : State), s.image = some i →
    u = { s.notify (.supervisionFault kind s.time (s.window.lastGood.map (· + 1#8)) (s.window.faults + 1)) with
      window := { s.window with
        reference := some s.time, earlyIsWmin := false, expiry := some (s.time + millis i.shared.wmax)
        faults := s.window.faults + 1 } } →
    (s.window.faults + 1 < i.shared.faultLimit → s.superviseFault kind = u) ∧
    (i.shared.faultLimit ≤ s.window.faults + 1 →
      s.superviseFault kind = { (u.notify (.supervisionLoss s.time kind)).fire i.shared.supervisionAction .supervision none with
        window := { ((u.notify (.supervisionLoss s.time kind)).fire i.shared.supervisionAction .supervision none).window with
          faults := 0 } }) ∧
    (∀ due, s.held = false → s.window.armed = true → s.window.expiry = some due → reached due s.time = true →
      exec .supervisionExpiry s = .next (s.superviseFault .timeout))

/-! ### Deep sleep -/

/-- R137: SLEEP, the first row of the table that applies; it is taken exactly where none does.
R138, R139, R144, R145: SLEEP taken: the DONE is the last frame of the link, which enters its closing phase with a shut
expiry of 50 ms; the state becomes ENTERING in DRAINING, the cursor is asked to stop, the stream becomes ABSENT, the kept tags
and the latched causes are emptied, both patrol counts are 0, and the trackers and the pulses start.
R144, R145: an input that is watched continuously starts with its level as the filtered level, one that is OFF or pulsed with none;
and pulses are sent where an input that is not OFF is pulsed.
R137: a chain holds a PASS in its forward queue or in flight. -/
def Obligations.SleepAnswers : Prop :=
  (((∀ (s : State) (tag : Byte), s.linkReady →
       (∀ status reason, s.sleepRefusal = some (status, reason) →
         exec (.sleep tag) s = .next (s.answered tag status (.reason reason)).finish) ∧
       (s.sleep.op ≠ .run → s.sleepRefusal = some (.refusedState, .state)) ∧
       (s.sleep.op = .run →
         (s.allOpen = false → s.sleepRefusal = some (.refusedState, .contactor)) ∧
         (s.allOpen = true → (∃ k, (s.channel k).welded = true) → s.sleepRefusal = some (.refusedState, .welded)) ∧
         (s.allOpen = true → (∀ k, (s.channel k).welded = false) →
           (s.sequencer.state ≠ .idle → s.sleepRefusal = some (.refusedState, .sequencer)) ∧
           (s.sequencer.state = .idle →
             ((∃ k, (s.channel k).settleExpiry ≠ none) → s.sleepRefusal = some (.busy, .settle)) ∧
             ((∀ k, (s.channel k).settleExpiry = none) →
               (s.update.state ≠ .closed → s.sleepRefusal = some (.busy, .update)) ∧
               (s.update.state = .closed → (∃ c ∈ s.captures.list, c.complete = false) →
                 s.sleepRefusal = some (.busy, .capture)) ∧
               (s.update.state = .closed → (∀ c ∈ s.captures.list, c.complete = true) →
                 ((∃ c, (s.port c).survey ≠ .idle) → s.sleepRefusal = some (.busy, .survey)) ∧
                 ((∀ c, (s.port c).survey = .idle) →
                   ((∃ c, (s.port c).holdsPass = true) → s.sleepRefusal = some (.busy, .pass)) ∧
                   ((∀ c, (s.port c).holdsPass = false) → s.sleepRefusal = none)))))))) ∧
    (∀ (s u : State) (tag : Byte) (i : Image), s.linkReady → s.sleepRefusal = none → s.image = some i →
       u = ({ s with
         cursor := { s.cursor with
           state := if s.cursor.state = .running ∨ s.cursor.state = .starting then .stopping else s.cursor.state }
         stream := { s.stream with state := .absent, lossExpiry := none }
         ports := ⟨{ s.ports.a with kept := [] }, { s.ports.b with kept := [] }⟩
         link := { s.taken.link with queue := s.link.queue ++ [⟨.reply tag .done .none, true⟩], state := .closing }
         sleep := { s.sleep with
           op := .entering, phase := some .draining, shutExpiry := some (s.time + 50000#32), missCount := 0, patrolCount := 0
           latched := .empty
           trackers :=
             ⟨startTracker i.patrolTable.inputs.w1 s.pins.wake.w1, startTracker i.patrolTable.inputs.w2 s.pins.wake.w2,
               startTracker i.patrolTable.inputs.w3 s.pins.wake.w3⟩ }
         sleepWork := { s.sleepWork with
           phaseExpiry := none, awaiting := .both false, roused := .both false, wakingSince := none
           senseOut := if PatrolTable.pulses i.patrolTable then true else s.sleepWork.senseOut
           pulseStart := if PatrolTable.pulses i.patrolTable then some s.time else s.sleepWork.pulseStart } } : State) →
       exec (.sleep tag) s = .next u.finish)) ∧
   (∀ (w : WakeSetting) (level : Bool) (p : PatrolTable),
     (w.mode ≠ .off → w.pulsed = false → startTracker w level = ⟨some level, none, none, none, none⟩) ∧
     (w.mode = .off ∨ w.pulsed = true → startTracker w level = ⟨none, none, none, none, none⟩) ∧
     (PatrolTable.pulses p = true ↔ ∃ x ∈ [p.inputs.w1, p.inputs.w2, p.inputs.w3], x.mode ≠ .off ∧ x.pulsed = true))) ∧
  (∀ p : ChainPort, p.holdsPass = true ↔ p.forward ≠ [] ∨ ∃ o pass, o.owner = .pass pass ∧
    ((∃ tag ended timeout, p.transaction = some (.order o tag ended timeout)) ∨
      ∃ settle, p.transaction = some (.broadcast o settle)))

/-- R139, R142: the shut expiry shuts the link with its queue and its answers owed gone. The patrol timer of ASLEEP begins a
patrol in OSC_START for 0.5 ms, restarts at once from its own expiry, and raises the patrol count, which stays at 65535.
R143: the miss count of a patrol: an entry of a SENT part MISSING raises it, and at the limit PATROL_MISS is due and the
count is 0; a SENT part with none MISSING clears it; with no SENT part it keeps its value. After the judgement at the close of the PATROL
round, a latched cause brings WAKING with the oscillator running; with none a REST joins each roused chain, and the patrol ends at once
where none was roused; at the end of a patrol the oscillator stops and the bridge is ASLEEP, or WAKING where a cause is latched.
That the return to ASLEEP leaves the sleep instant as it was is the model's reading (entry 33, DEDUCED).
R139: where the exchange in progress has clocked the DONE out whole, the expiry changes nothing, and the link shuts at the end of that
exchange; an exchange that the shut cuts is marked so (entry 29), and what it has clocked is what it has sampled (entry 53). -/
def Obligations.PatrolsBeginAndEnd : Prop :=
  ((∀ s : State, s.held = false →
      (∀ (due : Instant) (clocked : Prop),
        clocked = (∃ e q, s.link.exchange = some e ∧ e.kind = .live ∧ e.frame = some q ∧ q.final = true ∧
          q.frame.bytes.length + 1 ≤ e.bits.length / 8) →
        s.link.state = .closing → s.sleep.shutExpiry = some due → reached due s.time = true →
        (¬clocked → exec .shutExpiry s = .next ({ s with
          link := { s.link with
            state := .shut, queue := [], owed := 0, exchange := s.link.exchange.map fun e =>
              if e.kind = .live then { e with kind := .closing } else e }
          sleep := { s.sleep with shutExpiry := none } } : State).finish) ∧
        (clocked → exec .shutExpiry s = .next s)) ∧
      (∀ i next, s.image = some i → s.sleep.op = .asleep → s.sleep.patrolTimer = some ⟨next, 0⟩ →
        exec .patrolTimerExpiry s = .next { s with
          sleep := { s.sleep with
            op := .patrol, phase := some .oscStart, patrolCount := min (s.sleep.patrolCount + 1) 65535
            patrolTimer := some ⟨next + micros (i.patrolTable.interval * 1000000), i.patrolTable.interval * 1000000⟩ }
          sleepWork := { s.sleepWork with
            phaseExpiry := some (s.time + 500#32), awaiting := .both false, roused := .both false } })) ∧
   (∀ (count limit : Nat) (r : RoundRecord),
      ((∃ p ∈ r.parts, p.state = .sent ∧ ∃ x ∈ p.readings, x.status = .missing) →
        judgeMiss count limit r = if limit ≤ count + 1 then (0, true) else (count + 1, false)) ∧
      ((∃ p ∈ r.parts, p.state = .sent) → (∀ p ∈ r.parts, p.state = .sent → ∀ x ∈ p.readings, x.status ≠ .missing) →
        judgeMiss count limit r = (0, false)) ∧
      ((∀ p ∈ r.parts, p.state ≠ .sent) → judgeMiss count limit r = (count, false)))) ∧
  (∀ (s u : State) (i : Image) (r : RoundRecord) (judged : Nat × Bool), s.image = some i →
    judged = judgeMiss s.sleep.missCount i.patrolTable.missLimit r →
    u = (if judged.2 then ({ s with sleep := { s.sleep with missCount := judged.1 } } : State).latch .patrolMiss
      else { s with sleep := { s.sleep with missCount := judged.1 } }) →
    (u.sleep.latched = .empty → s.judgePatrol r = u.restPatrol) ∧
    (u.sleep.latched ≠ .empty → s.judgePatrol r = u.wakeRunning) ∧
    (∀ t, r.step = .patrol → State.afterClose t r = t.judgePatrol r)) ∧
  (∀ (s v w : State) (on : Chain → Bool), (∀ c, on c = s.sleepWork.roused.get c) →
    v = { s with
      sleep := { s.sleep with phase := some .resting }
      ports := ⟨{ s.ports.a with internal := s.ports.a.internal ++ if on .A then [⟨0, 0xF2#8, [], .rest⟩] else [] },
        { s.ports.b with internal := s.ports.b.internal ++ if on .B then [⟨0, 0xF2#8, [], .rest⟩] else [] }⟩
      sleepWork := { s.sleepWork with
        awaiting := ⟨s.sleepWork.awaiting.a || on .A, s.sleepWork.awaiting.b || on .B⟩ } } →
    s.restPatrol = (if on .A = false ∧ on .B = false then v.endPatrol else v) ∧
    (s.sleep.latched = .empty → s.endPatrol = { s with
      oscillator := false
      channels := ⟨{ s.channels.k1 with debounceExpiry := none }, { s.channels.k2 with debounceExpiry := none },
        { s.channels.k3 with debounceExpiry := none }, { s.channels.k4 with debounceExpiry := none }⟩
      sleep := { s.sleep with op := .asleep, phase := none } }) ∧
    (w = { s with
      sleep := { s.sleep with op := .waking, patrolTimer := none }
      sleepWork := { s.sleepWork with
        wakingSince := some s.time, awaiting := .both false, roused := .both false, phaseExpiry := none } } →
      s.wakeRunning = w.wakeRousing ∧ (s.sleep.latched ≠ .empty → s.endPatrol = w.wakeRousing)))

/-- R102, R143, R148: at the end of OSC_START the oscillator runs and the feedback is sampled again; a ROUSE joins the internal
queue of each patrol chain that is RUNNING, or in a wake of each RUNNING chain that is RESTING; where there is none the PATROL round, or
LINK_OPEN, follows at once. At the end of NODE_WAKE a patrol creates its round and a wake opens the link.
R22: the PATROL round has no report, the patrol chains and the patrol kind, and is judged at once where no chain is RUNNING. R10, R12,
R13: a round created: the counter, its TRIGGER on each chain that is free, and its place.
R148, R149, R171: LINK_OPEN: the link opens empty with no answer owed, the first WOKE is its only frame and carries the
latched causes, which are then empty; HWAKE is high and the last wake record holds what the WOKE says. The cursor is then RUNNING at
step 0 and the bridge RUN; or, with first-round-immediate, the cursor is STARTING and the WAKE round is created, and at its close, or at
once with no chain RUNNING, the cursor runs and the bridge is RUN. That a STARTING cursor keeps its step, start and count is entry 41.
R147 to R149: becoming RUN ends the trackers and the pulses, begins the pending surveys, chain A first (entry 42), and notices a second
WOKE where causes were latched since, which the last wake record takes too.
R143, R148: when the last ROUSE awaited ends, the node wake time runs; when the last REST of a patrol ends, the patrol ends.
The union of two sets of causes holds what either holds. -/
def Obligations.OscillatorAndNodesWake : Prop :=
  ((∀ (s v : State) (due : Instant) (resumed : ChannelId → Channel → Bool → Channel), s.held = false →
     s.sleepWork.phaseExpiry = some due → reached due s.time = true →
     resumed = (fun k c level => { c with
       rawClosed := level
       debounceExpiry := if level = c.debouncedClosed then none else some (s.time + millis (s.debounce k)) }) →
     v = { s with
       oscillator := true
       channels := ⟨resumed .K1 s.channels.k1 s.pins.kfb.k1, resumed .K2 s.channels.k2 s.pins.kfb.k2,
         resumed .K3 s.channels.k3 s.pins.kfb.k3, resumed .K4 s.channels.k4 s.pins.kfb.k4⟩
       sleepWork := { s.sleepWork with phaseExpiry := none } } →
     (s.sleep.phase = some .oscStart →
       (s.sleep.op = .patrol → exec .oscStartEnd s = .next v.patrolRousing.finish) ∧
       (s.sleep.op = .waking → exec .oscStartEnd s = .next v.wakeRousing.finish)) ∧
     (s.sleep.phase = some .nodeWake →
       (s.sleep.op = .patrol → exec .nodeWakeEnd s = .next s.patrolRound.finish) ∧
       (s.sleep.op = .waking → exec .nodeWakeEnd s = .next s.linkOpen.finish))) ∧
   (∀ (s : State) (on : Chain → Bool) (i : Image) (rousing : State → State) (u : State), s.image = some i →
     rousing = (fun t => { t with
       sleep := { t.sleep with phase := some .rousing }
       ports := ⟨{ t.ports.a with internal := t.ports.a.internal ++ if on .A then [⟨0, 0xF3#8, [], .rouse⟩] else [] },
         { t.ports.b with internal := t.ports.b.internal ++ if on .B then [⟨0, 0xF3#8, [], .rouse⟩] else [] }⟩
       sleepWork := { t.sleepWork with
         awaiting := ⟨t.sleepWork.awaiting.a || on .A, t.sleepWork.awaiting.b || on .B⟩ } }) →
     u = { s with sleepWork := { s.sleepWork with phaseExpiry := none, roused := ⟨on .A, on .B⟩ } } →
     ((∀ c, on c = true ↔ c ∈ i.patrolTable.chains ∧ (s.port c).run = .running) →
       s.patrolRousing = if on .A = false ∧ on .B = false then (rousing u).patrolRound else rousing u) ∧
     ((∀ c, on c = true ↔ (s.port c).run = .running ∧ (s.port c).resting = true) →
       s.wakeRousing = if on .A = false ∧ on .B = false then (rousing s).linkOpen else rousing s)) ∧
   (∀ (s : State) (r : WakeRecord),
      r = ⟨s.sleep.latched, s.sleep.sleepInstant, s.sleepWork.wakingSince, s.sleep.patrolCount, s.sleep.missCount⟩ →
      s.openForWake = { s with
        link := { s.link with
          state := .opened, queue := [⟨.notice (.woke r), false⟩], owed := 0, lastDiscarded := false, lastCheckFailed := false
          unsolicitedDiscard := false, resetExpiry := none, hwake := true }
        sleep := { s.sleep with lastWake := some r, latched := .empty } }) ∧
   (∀ (s v w : State) (i : Image) (r : RoundRecord) (run : State → State), s.image = some i →
     v = { s with
       sleep := { s.sleep with phase := some .round }, sleepWork := { s.sleepWork with phaseExpiry := none } } →
     r = {
       number := s.roundCounter + 1#16, step := .patrol, kind := i.patrolTable.kind, report := false
       epoch := s.workingEpoch, planned := s.time, parts := i.patrolTable.chains.map (s.newPart s.time)
       verdicts := [], closed := false, holders := 0, reported := false } →
     ((∃ p ∈ r.parts, p.state ≠ .stopped) → s.patrolRound = v.createRound r) ∧
     ((∀ p ∈ r.parts, p.state = .stopped) → s.patrolRound = (v.createRound r).judgePatrol r) ∧
     (run = (fun t => (State.beginStep { t with cursor := ⟨.running, 0, t.time, 0#32⟩ }).becomeRun) →
       w = { s.openForWake with sleepWork := { s.sleepWork with phaseExpiry := none } } →
       (i.patrolTable.firstImmediate = false → s.linkOpen = run w) ∧
       (∀ x c, i.patrolTable.firstImmediate = true → x = ({ w with
           cursor := { s.cursor with state := .starting }, sleep := { w.sleep with phase := some .wakeRound } } : State) →
         c = { r with
           step := .wake, report := true
           parts := (Chain.all.filter fun c => decide ((s.port c).run = .running)).map (s.newPart s.time) } →
         ((∃ c, (s.port c).run = .running) → s.linkOpen = x.createRound c) ∧
         ((∀ c, (s.port c).run ≠ .running) → s.linkOpen = run (x.createRound c))) ∧
       (∀ t y, y.step = .wake → State.afterClose t y = run t))) ∧
   (∀ (s u : State) (r : RoundRecord) (sent : Chain → Bool),
     (∀ c, sent c = true ↔ ∃ p ∈ r.parts, p.chain = c ∧ p.state = .sent) →
     u = { s with
       roundCounter := r.number
       ports := ⟨{ s.ports.a with transaction := if sent .A then some .trigger else s.ports.a.transaction },
         { s.ports.b with transaction := if sent .B then some .trigger else s.ports.b.transaction }⟩ } →
     ((∃ p ∈ r.parts, p.state = .sent) → s.createRound r = u.placeRound r) ∧
     ((∀ p ∈ r.parts, p.state ≠ .sent) → (∃ p ∈ r.parts, p.state = .waiting) →
       s.createRound r = { u with pendingRound := some r }) ∧
     ((∀ p ∈ r.parts, p.state ≠ .sent ∧ p.state ≠ .waiting) → s.createRound r = (u.placeRound r).closeStages r.number)) ∧
   (∀ (s u w : State), u = { s with
       sleep := { s.sleep with op := .run, phase := none, trackers := ⟨.inactive, .inactive, .inactive⟩ }
       sleepWork := { s.sleepWork with senseOut := false, pulseStart := none, phaseExpiry := none } } →
     w = (u.pendingSurvey .A).pendingSurvey .B →
     (s.sleep.latched = .empty → s.becomeRun = w) ∧
     (s.sleep.latched ≠ .empty → s.becomeRun = ({ w with sleep := { w.sleep with
       lastWake := s.sleep.lastWake.map fun r => { r with causes := r.causes.union s.sleep.latched }
       latched := .empty } } : State).notify (.woke ⟨s.sleep.latched, s.sleep.sleepInstant, s.sleepWork.wakingSince,
         s.sleep.patrolCount, s.sleep.missCount⟩))) ∧
   (∀ (s u : State) (c other : Chain) (rest : Bool), other ≠ c →
     u = { s with sleepWork := { s.sleepWork with awaiting := s.sleepWork.awaiting.set c false } } →
     (s.sleepWork.awaiting.get c = false ∨ s.sleep.phase ≠ some (if rest then .resting else .rousing) →
       s.broadcastEnded c rest = s) ∧
     (s.sleepWork.awaiting.get c = true → s.sleep.phase = some (if rest then .resting else .rousing) →
       (s.sleepWork.awaiting.get other = true ∨ s.sleep.op = .entering → s.broadcastEnded c rest = u) ∧
       (s.sleepWork.awaiting.get other = false →
         (∀ i, rest = false → s.sleep.op = .patrol ∨ s.sleep.op = .waking → s.image = some i → s.broadcastEnded c rest =
           { u with
             sleep := { s.sleep with phase := some .nodeWake }
             sleepWork := { u.sleepWork with phaseExpiry := some (s.time + millis i.patrolTable.nodeWake) } }) ∧
         (rest = true → s.sleep.op = .patrol → s.broadcastEnded c rest = u.endPatrol))))) ∧
  (∀ (v w : WakeSet) (c : WakeCause), (v.union w).has c = (v.has c || w.has c))

/-- R144: a watched wake input: a level that differs from the filtered one starts the filter, a return to it ends it, and at the
expiry the filtered level changes and the cause is latched where the mode names the change.
R145: SENSE_OUT becomes active a pulse period after it last did, and at the end of each on-time it becomes inactive and every
pulsed input is sampled: the first sample is the filtered level, one that differs from it changes nothing on its own, and a second
in a row changes the level and is judged.
R147: a cause joins the latched set in a sleep state, once, and ends ASLEEP at once; in RUN and UNCONFIGURED it is not latched.
The model's choices: that a change to the level that already stands changes nothing is entry 4; that the tracker's two samples are
the last two taken, of either level, is entry 36.
The settings are those of the patrol table of the working image. -/
def Obligations.WakeInputsAreWatched : Prop :=
  ((∀ (s : State) (n : WakeInput) (high : Bool) (w : WakeSetting) (f : Bool), s.held = false → s.wakeSetting n = some w →
      (s.pins.wake.get n = high → exec (.wakeInputChange n high) s = .next s) ∧
      (s.pins.wake.get n ≠ high → w.pulsed = false ∨ w.mode = .off → (s.sleep.trackers.get n).filtered = none →
        exec (.wakeInputChange n high) s = .next { s with pins := { s.pins with wake := s.pins.wake.set n high } }) ∧
      (s.pins.wake.get n ≠ high → w.pulsed = false ∨ w.mode = .off → (s.sleep.trackers.get n).filtered = some f →
        exec (.wakeInputChange n high) s = .next { s with
          pins := { s.pins with wake := s.pins.wake.set n high }
          sleep := { s.sleep with trackers := s.sleep.trackers.set n { s.sleep.trackers.get n with
            pending := if high = f then none else some high
            pendingExpiry := if high = f then none else some (s.time + micros w.filter) } } }) ∧
      (s.pins.wake.get n ≠ high → w.pulsed = true → w.mode ≠ .off →
        exec (.wakeInputChange n high) s = .next { s with pins := { s.pins with wake := s.pins.wake.set n high } }) ∧
      (∀ due, (s.sleep.trackers.get n).pending = some high → (s.sleep.trackers.get n).pendingExpiry = some due →
        reached due s.time = true →
        (WakeMode.names w.mode high = false → exec (.wakeFilterExpiry n) s = .next (s.setTracker n { s.sleep.trackers.get n with
          filtered := some high, pending := none, pendingExpiry := none })) ∧
        (WakeMode.names w.mode high = true → exec (.wakeFilterExpiry n) s = .next ((s.setTracker n { s.sleep.trackers.get n with
          filtered := some high, pending := none, pendingExpiry := none }).latch (.input n)))) ∧
      (WakeMode.names w.mode high = true ↔ w.mode = .either ∨ (w.mode = .rise ∧ high = true) ∨ (w.mode = .fall ∧ high = false))) ∧
   (∀ (s : State) (n : WakeInput) (high : Bool), s.held = false → s.wakeSetting n = none → s.pins.wake.get n ≠ high →
      exec (.wakeInputChange n high) s = .next { s with pins := { s.pins with wake := s.pins.wake.set n high } }) ∧
   (∀ (s : State) (last : Instant), s.held = false → s.sleepWork.pulseStart = some last →
      (s.sleepWork.senseOut = false → reached (last + micros s.pulsePeriod) s.time = true → exec .sensePulseStart s =
        .next { s with sleepWork := { s.sleepWork with senseOut := true, pulseStart := some (last + micros s.pulsePeriod) } }) ∧
      (s.sleepWork.senseOut = true → reached (last + micros s.pulseOn) s.time = true → exec .sensePulseSample s =
        .next (((({ s with sleepWork := { s.sleepWork with senseOut := false } } : State).sampleInput .wake1).sampleInput
          .wake2).sampleInput .wake3)) ∧
      (∀ (n : WakeInput) (w : WakeSetting) (t : Tracker) (level : Bool), s.wakeSetting n = some w →
        t = s.sleep.trackers.get n → level = s.pins.wake.get n →
        (w.mode = .off ∨ w.pulsed = false → s.sampleInput n = s) ∧
        (w.mode ≠ .off → w.pulsed = true →
          (t.filtered = none ∨ t.filtered = some level → s.sampleInput n = s.setTracker n { t with
            filtered := some level, last := some level, previous := t.last }) ∧
          (t.filtered = some (!level) → t.last ≠ some level → s.sampleInput n = s.setTracker n { t with
            last := some level, previous := t.last }) ∧
          (∀ u, t.filtered = some (!level) → t.last = some level → u = s.setTracker n { t with
            filtered := some level, last := some level, previous := some level } →
            (WakeMode.names w.mode level = false → s.sampleInput n = u) ∧
            (WakeMode.names w.mode level = true → s.sampleInput n = u.latch (.input n)))))) ∧
   (∀ (s : State) (cause : WakeCause),
      (s.sleep.op = .run ∨ s.sleep.op = .unconfigured → s.latch cause = s) ∧
      (s.sleep.op = .entering ∨ s.sleep.op = .patrol ∨ s.sleep.op = .waking →
        s.latch cause = { s with sleep := { s.sleep with latched := s.sleep.latched.add cause } }) ∧
      (s.sleep.op = .asleep → s.latch cause = { s with
        sleep := { s.sleep with
          latched := s.sleep.latched.add cause, op := .waking, phase := some .oscStart, patrolTimer := none }
        sleepWork := { s.sleepWork with
          phaseExpiry := some (s.time + 500#32), wakingSince := some s.time, awaiting := .both false
          roused := .both false } }) ∧
      (∀ (l : WakeSet) (other : WakeCause), (l.add cause).has other = (l.has other || decide (other = cause))))) ∧
  (∀ (s : State) (n : WakeInput) (t : Tracker) (i : Image), s.image = some i →
    s.wakeSetting n = some (i.patrolTable.inputs.get n) ∧ s.pulsePeriod = i.patrolTable.pulsePeriod ∧
    s.pulseOn = i.patrolTable.pulseOn ∧
    s.setTracker n t = { s with sleep := { s.sleep with trackers := s.sleep.trackers.set n t } })

/-! ### Updates -/

/-- R157: UPDATE_OPEN, the first row of the table that applies; when it is taken the staging area is a copy of the working image,
or the blank image while UNCONFIGURED, and the window is OPEN for 10 s.
R157, R186: the blank image: every record that may be empty is, with 0 as its first byte, and every other field is at the lowest value
of its range, clear, OFF or none. The bytes of an empty record past its first are left open (entry 7). -/
def Obligations.UpdateOpenAnswers : Prop :=
  (∀ (s : State) (tag : Byte) (epoch : Epoch), s.linkReady →
     (s.update.latch = true → exec (.updateOpen tag epoch) s = .next (s.answered tag .locked .none)) ∧
     (s.update.latch = false → s.sleep.op = .waking →
       exec (.updateOpen tag epoch) s = .next (s.answered tag .refusedState (.reason .state))) ∧
     (s.update.latch = false → s.sleep.op ≠ .waking →
       (s.serviceRequired = true → s.svcFilter.active = false →
         exec (.updateOpen tag epoch) s = .next (s.answered tag .refusedState (.reason .service))) ∧
       (s.serviceRequired = false ∨ s.svcFilter.active = true →
         (s.update.state ≠ .closed → exec (.updateOpen tag epoch) s = .next (s.answered tag .busy .none)) ∧
         (s.update.state = .closed → epoch = 0#32 ∨ epoch ≤ s.store.floor →
           exec (.updateOpen tag epoch) s = .next (s.answered tag .badArgument .none)) ∧
         (s.update.state = .closed → s.store.floor < epoch → exec (.updateOpen tag epoch) s =
           .next (({ s with update := { s.update with
             state := .opened, staging := some (s.image.getD Image.blank), stagedEpoch := some epoch
             idleExpiry := some (s.time + 10000000#32) } } : State).answered tag .done
               (.updateOpened s.store.floor s.workingEpoch)))))) ∧
  ((∀ (n : Nat) (r : Record), (n < 16 ∧ r = Image.blank.schedule.getD n [] → r.length = 6 ∧ r.head? = some 0#8) ∧
      (n < 32 ∧ r = Image.blank.nodePlan.getD n [] → r.length = 3 ∧ r.head? = some 0#8) ∧
      (n < 64 ∧ r = Image.blank.limit.getD n [] → r.length = 18 ∧ r.head? = some 0#8)) ∧
    Image.blank.schedule.length = 16 ∧ Image.blank.nodePlan.length = 34 ∧ Image.blank.limit.length = 64 ∧
    (∀ c, Image.blank.timing c = ⟨20, 1000, 0, 50, 0, false⟩ ∧ Image.blank.plan c = [] ∧ Image.blank.nodeLossLimit c = 1 ∧
      Image.blank.nodeLossAction c = none) ∧
    Image.blank.steps = [] ∧ (∀ n, n < 64 → Image.blank.limitEntry n = none) ∧
    Image.blank.chainTiming = List.replicate 2 [0x00, 0x14, 0x03, 0xE8, 0x00, 0x00, 0x00, 0x32, 0x00, 0x00] ∧
    Image.blank.nodePlan.drop 32 = List.replicate 2 [0x01, 0xFF] ∧
    Image.blank.action = List.replicate 16 [0x00, 0x00] ∧
    Image.blank.contactor = List.replicate 4 [0x01, 0x00, 0x14, 0x0A, 0x01, 0x00, 0x32, 0x0A, 0x00] ++
      [[0x00, 0x00, 0x00, 0x00, 0xFF, 0xFF, 0xFF, 0x00, 0xFF, 0x00, 0x32, 0x00, 0x32, 0x00, 0x00, 0x00, 0x01, 0x00,
        0x0A, 0x00, 0x14, 0x01, 0xFF]] ∧
    Image.blank.capture = [[0x00, 0x00]] ∧
    Image.blank.patrol = [[0x00, 0x01, 0x00, 0x01, 0x01, 0x01, 0x00, 0x00, 0x01, 0x00, 0x00, 0x01, 0x00, 0x00, 0x01, 0x00,
      0x01, 0x01, 0x00]] ∧
    Image.blank.options = [[0xFF, 0x00]])

/-- R158: UPDATE_STAGE, tested in order; in OPEN the idle expiry moves to 10 s on, whatever the answer; a record that passes its
field checks replaces the staged one and is answered with the previous content.
R158, R186: the field checks. A wrong length is reported as FFh. A record that may be empty and is marked so passes: SCHEDULE, a
position of NODE_PLAN, LIMIT. Of any other record its fields are tested in order, and the first that is out of its range is
reported by its offset, so that a record whose every field is in range passes: the lists of all nine tables are spelled.
The model's choices: a pair of fields in disorder (Low above High, first above last) is reported at one of the two offsets, which
one being a free value, also where the second is out of its own range (entry 8); the channels of a CURRENT entry and the low limit
of a SPREAD entry have no range, and the orders of first and last hold for every quantity (entry 23).
R151, R158: the record that takes the place of the staged one, of each of the nine tables, with every other record as it was; the record
read; and the number of records of each table, none for another code. -/
def Obligations.UpdateStageAnswers : Prop :=
  (((∀ (s u : State) (tag table index : Byte) (record : Record) (staged : Image), s.linkReady →
       u = { s with update := { s.update with idleExpiry := some (s.time + 10000000#32) } } →
       (s.update.latch = true → exec (.updateStage tag table index record) s = .next (s.answered tag .locked .none)) ∧
       (s.update.latch = false →
         (s.update.state = .validating ∨ s.update.state = .writing ∨ s.update.state = .verifying →
           exec (.updateStage tag table index record) s = .next (s.answered tag .busy .none)) ∧
         (s.update.state = .closed ∨ s.update.state = .applyPending →
           exec (.updateStage tag table index record) s = .next (s.answered tag .refusedState .none)) ∧
         (s.update.state = .opened → s.update.staging = some staged →
           (recordCount table ≤ index.toNat → exec (.updateStage tag table index record) s =
             .next (u.answered tag .badArgument (.reason .table))) ∧
           (index.toNat < recordCount table →
             (∀ offset, failingField table index.toNat record = some offset →
               exec (.updateStage tag table index record) s = .next (u.answered tag .badArgument (.reason (.field offset)))) ∧
             (failingField table index.toNat record = none → exec (.updateStage tag table index record) s =
               .next (({ u with update := { u.update with staging := some (staged.withRecord table index record) } }
                 : State).answered tag .done (.record (staged.recordAt table index)))))))) ∧
    ((∀ (table : Byte) (index : Nat) (r : Record), r.length ≠ recordLength table index →
       failingField table index r = some 0xFF#8) ∧
     (∀ (index : Nat) (a b c d e f : Byte),
       (a = 0#8 → failingField 1#8 index [a, b, c, d, e, f] = none) ∧
       (failingField 1#8 index [a, b, c, d, e, f] = none → a ≠ 0#8 →
         a.toNat ≤ 2 ∧ 1 ≤ b.toNat * 256 + c.toNat ∧ b.toNat * 256 + c.toNat ≤ 2000 ∧ 1 ≤ d.toNat ∧ d.toNat ≤ 3 ∧
         1 ≤ e.toNat ∧ e.toNat ≤ 3 ∧ f.toNat ≤ 1) ∧
       (2 < a.toNat → failingField 1#8 index [a, b, c, d, e, f] = some 0#8) ∧
       (a = 1#8 ∨ a = 2#8 → 2000 < b.toNat * 256 + c.toNat → failingField 1#8 index [a, b, c, d, e, f] = some 1#8)) ∧
     (∀ (p q : Byte),
       (p.toNat ≤ 4 → q.toNat ≤ 4 → failingField 7#8 0 [p, q] = none) ∧
       (4 < p.toNat → failingField 7#8 0 [p, q] = some 0#8) ∧ (p.toNat ≤ 4 → 4 < q.toNat → failingField 7#8 0 [p, q] = some 1#8)))) ∧
   (∀ (index : Nat) (r : Record) (b w triple : Nat → Nat) (long : Nat → Int) (flag action : Nat → Nat × Bool)
       (range wide : Nat → Nat → Nat → Nat × Bool) (order : Nat → Nat → Bool → Nat × Bool)
       (first : List (Nat × Bool) → Option Byte),
     b = (fun n => (r.getD n 0#8).toNat) → w = (fun n => b n * 256 + b (n + 1)) →
     triple = (fun n => b n * 65536 + b (n + 1) * 256 + b (n + 2)) →
     long = (fun n => (word32 (r.getD n 0#8) (r.getD (n + 1) 0#8) (r.getD (n + 2) 0#8) (r.getD (n + 3) 0#8)).toInt) →
     flag = (fun n => (n, decide (b n ≤ 1))) → action = (fun n => (n, decide (b n ≤ 15) || decide (b n = 255))) →
     range = (fun n low high => (n, decide (low ≤ b n) && decide (b n ≤ high))) →
     wide = (fun n low high => (n, decide (low ≤ w n) && decide (w n ≤ high))) →
     order = (fun x y holds => (if Config.disorderAtSecond then y else x, holds)) →
     first = (fun fields => (fields.find? fun f => !f.2).map fun f => BitVec.ofNat 8 f.1) →
     (r.length = 6 → failingField 1#8 index r = if b 0 = 0 then none else
       first [range 0 1 2, wide 1 1 2000, range 3 1 3, range 4 1 3, flag 5]) ∧
     (r.length = 10 → failingField 2#8 index r =
       first [wide 0 20 500, wide 2 1000 20000, wide 4 0 2000, wide 6 50 5000, range 8 0 100, flag 9]) ∧
     (index < 32 → r.length = 3 → failingField 3#8 index r = if b 0 = 0 then none else
       first [range 0 1 1, range 1 1 16, range 2 0 4]) ∧
     (32 ≤ index → r.length = 2 → failingField 3#8 index r = first [range 0 1 15, action 1]) ∧
     (r.length = 18 → failingField 4#8 index r = if b 0 = 0 then none else first
       ([range 0 1 1, range 1 1 4, range 2 1 3, range 3 1 16, order 3 4 (decide (b 3 ≤ b 4)), range 4 1 16] ++
       (if b 1 = 1 ∨ b 1 = 3 then [range 5 1 16, order 5 6 (decide (b 5 ≤ b 6)), range 6 1 16]
       else if b 1 = 2 then [range 5 1 4, order 5 6 (decide (b 5 ≤ b 6)), range 6 1 4]
       else [order 5 6 (decide (b 5 ≤ b 6))]) ++
       (if b 1 = 1 then
         [(7, decide (0 ≤ long 7) && decide (long 7 ≤ 65535)), order 7 11 (decide (long 7 ≤ long 11)),
           (11, decide (0 ≤ long 11) && decide (long 11 ≤ 65535))]
       else if b 1 = 2 then
         [(7, decide (-32768 ≤ long 7) && decide (long 7 ≤ 32767)), order 7 11 (decide (long 7 ≤ long 11)),
           (11, decide (-32768 ≤ long 11) && decide (long 11 ≤ 32767))]
       else if b 1 = 3 then [(11, decide (0 ≤ long 11) && decide (long 11 ≤ 65535))]
       else
         [(7, decide (-8388608 ≤ long 7) && decide (long 7 ≤ 8388607)), order 7 11 (decide (long 7 ≤ long 11)),
           (11, decide (-8388608 ≤ long 11) && decide (long 11 ≤ 8388607))]) ++
       [range 15 1 (if b 1 = 4 then 255 else 15), action 16, range 17 1 3])) ∧
     (r.length = 2 → failingField 5#8 index r = first [range 0 0 15, range 1 0 7]) ∧
     (index < 4 → r.length = 9 → failingField 6#8 index r = first
       [range 0 1 4, wide 1 20 500, range 3 10 200, range 4 1 15, wide 5 50 1000, range 7 10 100, flag 8]) ∧
     (4 ≤ index → r.length = 23 → failingField 6#8 index r = first
       [(0, decide (triple 0 ≤ 8388607)), flag 3, action 4, action 5, action 6, range 7 0 200, action 8, wide 9 50 5000,
         wide 11 50 5000, (13, decide (triple 13 ≤ 8388607)), range 16 1 64, wide 17 10 1000, wide 19 20 2000,
         range 21 1 2, action 22]) ∧
     (r.length = 19 → failingField 8#8 index r = first
       [wide 0 1 3600, range 2 0 3, range 3 1 3, range 4 1 20, range 5 1 7, flag 6, range 7 0 3, range 8 1 3, flag 9,
         range 10 0 3, range 11 1 3, flag 12, range 13 0 3, range 14 1 3, flag 15, range 16 1 3, range 17 1 4, flag 18]) ∧
     (r.length = 2 → failingField 9#8 index r = first [action 0, flag 1])) ∧
   (∀ index, recordLength 1#8 index = 6 ∧ recordLength 2#8 index = 10 ∧ recordLength 4#8 index = 18 ∧
     recordLength 5#8 index = 2 ∧ recordLength 7#8 index = 2 ∧ recordLength 8#8 index = 19 ∧ recordLength 9#8 index = 2 ∧
     recordLength 3#8 index = (if index < 32 then 3 else 2) ∧ recordLength 6#8 index = if index < 4 then 9 else 23)) ∧
  (∀ (i : Image) (table index : Byte) (r : Record) (n : Nat), n = index.toNat →
    i.withRecord 1#8 index r = { i with schedule := i.schedule.set n r } ∧
    i.withRecord 2#8 index r = { i with chainTiming := i.chainTiming.set n r } ∧
    i.withRecord 3#8 index r = { i with nodePlan := i.nodePlan.set n r } ∧
    i.withRecord 4#8 index r = { i with limit := i.limit.set n r } ∧
    i.withRecord 5#8 index r = { i with action := i.action.set n r } ∧
    i.withRecord 6#8 index r = { i with contactor := i.contactor.set n r } ∧
    i.withRecord 7#8 index r = { i with capture := i.capture.set n r } ∧
    i.withRecord 8#8 index r = { i with patrol := i.patrol.set n r } ∧
    i.withRecord 9#8 index r = { i with options := i.options.set n r } ∧
    i.recordAt 1#8 index = i.schedule.getD n [] ∧ i.recordAt 2#8 index = i.chainTiming.getD n [] ∧
    i.recordAt 3#8 index = i.nodePlan.getD n [] ∧ i.recordAt 4#8 index = i.limit.getD n [] ∧
    i.recordAt 5#8 index = i.action.getD n [] ∧ i.recordAt 6#8 index = i.contactor.getD n [] ∧
    i.recordAt 7#8 index = i.capture.getD n [] ∧ i.recordAt 8#8 index = i.patrol.getD n [] ∧
    i.recordAt 9#8 index = i.options.getD n [] ∧
    [1#8, 2#8, 3#8, 4#8, 5#8, 6#8, 7#8, 8#8, 9#8].map recordCount = [16, 2, 34, 64, 16, 5, 1, 1, 1] ∧
    (table = 0#8 ∨ 9 < table.toNat → recordCount table = 0))

/-- R159: READ_RECORD, tested in order; a STAGED record moves the idle expiry, a WORKING one changes nothing. The answer to a
source code that R185 does not give is the model's (entry 19).
That a STAGED record answered BAD_ARGUMENT moves no idle expiry is entry 49.
R151: the record answered, of each of the nine tables, and the number of records of each, none for another code. R186: what each record
says, field by field, as every other rule reads it. That the duty link of a channel record is on at 01h is the model's reading
(entry 26, DEDUCED). -/
def Obligations.ReadRecordAnswers : Prop :=
  (∀ (s : State) (tag table index source : Byte), s.linkReady →
     (recordCount table ≤ index.toNat ∨ (source ≠ 1#8 ∧ source ≠ 2#8) →
       exec (.readRecord tag table index source) s = .next (s.answered tag .badArgument .none)) ∧
     (index.toNat < recordCount table →
       (s.update.state ≠ .opened →
         exec (.readRecord tag table index 2#8) s = .next (s.answered tag .refusedState .none)) ∧
       (∀ staged, s.update.state = .opened → s.update.staging = some staged →
         exec (.readRecord tag table index 2#8) s = .next (({ s with
           update := { s.update with idleExpiry := some (s.time + 10000000#32) } } : State).answered tag .done
             (.record (staged.recordAt table index)))) ∧
       (s.image = none → exec (.readRecord tag table index 1#8) s = .next (s.answered tag .refusedState .none)) ∧
       (∀ i, s.image = some i → exec (.readRecord tag table index 1#8) s =
         .next (s.answered tag .done (.record (i.recordAt table index)))))) ∧
  (∀ (i : Image) (table index : Byte) (n : Nat), n = index.toNat →
    i.recordAt 1#8 index = i.schedule.getD n [] ∧ i.recordAt 2#8 index = i.chainTiming.getD n [] ∧
    i.recordAt 3#8 index = i.nodePlan.getD n [] ∧ i.recordAt 4#8 index = i.limit.getD n [] ∧
    i.recordAt 5#8 index = i.action.getD n [] ∧ i.recordAt 6#8 index = i.contactor.getD n [] ∧
    i.recordAt 7#8 index = i.capture.getD n [] ∧ i.recordAt 8#8 index = i.patrol.getD n [] ∧
    i.recordAt 9#8 index = i.options.getD n [] ∧
    [1#8, 2#8, 3#8, 4#8, 5#8, 6#8, 7#8, 8#8, 9#8].map recordCount = [16, 2, 34, 64, 16, 5, 1, 1, 1] ∧
    (table = 0#8 ∨ 9 < table.toNat → recordCount table = 0)) ∧
  (∀ (i : Image) (r : Record) (b w triple : Nat → Nat) (long : Nat → Int) (flag : Nat → Bool) (action : Nat → Option Nat)
      (chains : Nat → List Chain) (kind : Nat → SampleKind),
    b = (fun n => (r.getD n 0#8).toNat) → w = (fun n => b n * 256 + b (n + 1)) →
    triple = (fun n => b n * 65536 + b (n + 1) * 256 + b (n + 2)) →
    long = (fun n => (r.getD n 0#8 ++ r.getD (n + 1) 0#8 ++ r.getD (n + 2) 0#8 ++ r.getD (n + 3) 0#8).toInt) →
    flag = (fun n => decide (b n = 1)) → action = (fun n => if b n ≤ 15 then some (b n) else none) →
    chains = (fun n => (if b n = 1 ∨ b n = 3 then [.A] else []) ++ if b n = 2 ∨ b n = 3 then [.B] else []) →
    kind = (fun n => match b n with | 1 => .cells | 2 => .temps | _ => .both) →
    (readStep r = if b 0 = 0 then none else some ⟨decide (b 0 = 2), w 1, chains 3, kind 4, flag 5⟩) ∧
    (i.steps = ((i.schedule.map readStep).takeWhile Option.isSome).reduceOption) ∧
    (∀ c, r = i.chainTiming.getD (if c = .A then 0 else 1) [] → i.timing c =
      ⟨((i.chainTiming.getD 0 []).getD 0 0#8).toNat * 256 + ((i.chainTiming.getD 0 []).getD 1 0#8).toNat, w 2, w 4, w 6, b 8,
        flag 9⟩) ∧
    (∀ c n p, n < 16 → i.nodePlan.length = 34 → r = i.nodePlan.getD (if c = .A then n else n + 16) [] →
      ((p ∈ i.plan c ∧ p.position = n + 1) ↔ b 0 ≠ 0 ∧ p = ⟨n + 1, b 1, b 2⟩)) ∧
    (∀ c, r = i.nodePlan.getD (if c = .A then 32 else 33) [] → i.nodeLossLimit c = b 0 ∧ i.nodeLossAction c = action 1) ∧
    (∀ n, r = i.limit.getD n [] → i.limitEntry n = if b 0 = 0 then none else some
      ⟨(match b 1 with | 1 => .cell | 2 => .temp | 3 => .spread | _ => .current), chains 2, b 3, b 4, b 5, b 6, long 7, long 11,
        b 15, action 16, decide (b 17 = 1 ∨ b 17 = 3), decide (b 17 = 2 ∨ b 17 = 3)⟩) ∧
    (∀ n, r = i.action.getD n [] → i.actionEntry n = ⟨([.K1, .K2, .K3, .K4] : List ChannelId).filter (fun k => (b 0).testBit
        (match k with | .K1 => 0 | .K2 => 1 | .K3 => 2 | .K4 => 3)),
      (b 1).testBit 0, (b 1).testBit 1, (b 1).testBit 2⟩) ∧
    (∀ k, r = i.contactor.getD (match k with | .K1 => 0 | .K2 => 1 | .K3 => 2 | .K4 => 3) [] → i.channelProfile k =
      ⟨(match b 0 with | 1 => .neg | 2 => .pre | 3 => .pos | _ => .aux), w 1, b 3, b 4, w 5, b 7, flag 8⟩) ∧
    (r = i.contactor.getD 4 [] → i.shared = ⟨triple 0, flag 3, action 4, action 5, action 6, b 7, action 8, w 9, w 11,
      triple 13, b 16, w 17, w 19, b 21, action 22⟩) ∧
    (r = i.capture.getD 0 [] → i.capturePre = b 0 ∧ i.capturePost = b 1) ∧
    (r = i.patrol.getD 0 [] → ∀ setting, setting = (fun n => (⟨
        (match b n with | 0 => .off | 1 => .rise | 2 => .fall | _ => .either),
        (match b (n + 1) with | 1 => 100 | 2 => 1000 | _ => 10000), flag (n + 2)⟩ : WakeSetting)) →
      i.patrolTable = ⟨w 0, chains 2, kind 3, b 4, b 5, flag 6, ⟨setting 7, setting 10, setting 13⟩,
        (match b 16 with | 1 => 100 | 2 => 500 | _ => 2000),
        (match b 17 with | 1 => 16000 | 2 => 64000 | 3 => 256000 | _ => 1024000), flag 18⟩) ∧
    (r = i.options.getD 0 [] → i.tamperAction = action 0 ∧ i.serviceRequired = flag 1))

/-- R161 to R163: UPDATE_COMMIT, tested in order; when it is taken the state is VALIDATING and its REPLY is owed. At the end of
validation a failure is answered REFUSED_STATE with its reason and the window is OPEN again for 10 s; a success is answered
ACCEPTED and writing begins in the target slot, whose header becomes WRITING with the staged epoch.
R163: the target slot: while an image works, the other one; otherwise A when A is not VALID, else B when B is not VALID, else
the one with the lower epoch, B when they are equal.
R161: the checks in order. STEPS: the first record is empty, an enabled one follows an empty one, or no step is TRIGGER. WIDTH: a
TRIGGER step shorter than the collection window of a chain it names. SCOPE: an entry whose range covers no planned position, or none
with a channel of it. ACTION: an entry with no action. ROLES: a channel's role repeats an earlier one's. WINDOW and PRECHARGE: a
maximum at or below its minimum. CHECK: the check word over the identity, the epoch and the records is not the commit's.
The model's choices: the index of STEPS without a TRIGGER step is a free value (entry 8); the header keeps its old check word until
the swap (entry 48).
R186, 11.4: the CRC-32, with its check value, and the bytes it is taken over. -/
def Obligations.CommitValidates : Prop :=
  ((((∀ (s : State) (tag : Byte) (word : BitVec 32), s.linkReady →
       (s.update.latch = true → exec (.updateCommit tag word) s = .next (s.answered tag .locked .none)) ∧
       (s.update.latch = false →
         (s.update.state = .validating ∨ s.update.state = .writing ∨ s.update.state = .verifying →
           exec (.updateCommit tag word) s = .next (s.answered tag .busy .none)) ∧
         (s.update.state = .closed ∨ s.update.state = .applyPending →
           exec (.updateCommit tag word) s = .next (s.answered tag .refusedState .none)) ∧
         (s.update.state = .opened → exec (.updateCommit tag word) s = .next { s.taken with
           update := { s.update with state := .validating, idleExpiry := none }
           commit := ⟨some tag, word, 0#32, some (s.time + 2000#32), false⟩ }))) ∧
     (∀ (s : State) (tag : Byte) (i : Image) (e : Epoch), s.held = false → s.update.state = .validating →
       s.commit.tag = some tag → s.link.state ≠ .shut → s.update.staging = some i → s.update.stagedEpoch = some e →
       (∀ r, validationFailure i s.store.identity e s.commit.word = some r → exec .validationEnd s = .next (({ s with
         update := { s.update with state := .opened, idleExpiry := some (s.time + 10000000#32) }
         commit := ⟨none, 0#32, 0#32, none, false⟩ } : State).queued (.reply tag .refusedState (.reason r)))) ∧
       (validationFailure i s.store.identity e s.commit.word = none → exec .validationEnd s = .next (({ s with
         store := s.store.setSlot s.targetSlot { s.store.slot s.targetSlot with
           state := .writing, epoch := e, image := Image.erased }
         update := { s.update with state := .writing, target := some s.targetSlot }
         commit := { s.commit with
           tag := none, kept := checkWord s.store.identity e i, bound := some (s.time + 40000#32), storeFault := false }
         } : State).queued (.reply tag .accepted .none))))) ∧
    (∀ s : State,
       (∀ w, s.working = some w → s.targetSlot ≠ w.slot) ∧
       (s.working = none →
         (s.store.slotA.state ≠ .valid → s.targetSlot = .A) ∧
         (s.store.slotA.state = .valid → s.store.slotB.state ≠ .valid → s.targetSlot = .B) ∧
         (s.store.slotA.state = .valid → s.store.slotB.state = .valid →
           (s.store.slotA.epoch < s.store.slotB.epoch → s.targetSlot = .A) ∧
           (s.store.slotB.epoch ≤ s.store.slotA.epoch → s.targetSlot = .B))))) ∧
   (∀ (i : Image) (identity : BitVec 64) (epoch : Epoch) (word : BitVec 32) (enabled late : Nat → Prop)
       (narrow : ScheduleStep → Prop) (entry : (LimitEntry → Prop) → Record → Prop) (scope : LimitEntry → Prop)
       (role : ChannelId → Role),
     enabled = (fun n => n < i.schedule.length ∧ byteAt (i.schedule.getD n []) 0 ≠ 0) →
     late = (fun n => enabled n ∧ ∃ m, m < n ∧ ¬enabled m) →
     narrow = (fun x => x.trigger = true ∧ ∃ c ∈ x.chains, x.width * 100 < (i.timing c).window) →
     entry = (fun bad r => ∃ e, readLimit r = some e ∧ bad e) →
     scope = (fun e => e.quantity ≠ .current ∧ ∃ c ∈ e.chains,
       (∀ p ∈ i.plan c, ¬(e.firstPosition ≤ p.position ∧ p.position ≤ e.lastPosition)) ∨
       (∀ p ∈ i.plan c, e.firstPosition ≤ p.position → p.position ≤ e.lastPosition →
         (if e.quantity = .temp then p.temps else p.cells) < e.firstChannel)) →
     role = (fun k => (i.channelProfile k).role) →
     validationFailure i identity epoch word = (stepsFailure i <|> widthFailure i <|> scopeFailure i <|> actionFailure i <|>
       rolesFailure i <|> windowFailure i <|> prechargeFailure i <|> checkFailure i identity epoch word) ∧
     (¬enabled 0 → stepsFailure i = some (.steps 1#8 0#8)) ∧
     (∀ n, enabled 0 → late n → (∀ m, m < n → ¬late m) → stepsFailure i = some (.steps 1#8 (byteOfNat n))) ∧
     (enabled 0 → (∀ n, ¬late n) →
       ((∀ x ∈ i.steps, x.trigger = false) → ∃ index, stepsFailure i = some (.steps 1#8 index)) ∧
       ((∃ x ∈ i.steps, x.trigger = true) → stepsFailure i = none)) ∧
     ((∀ x ∈ i.steps, ¬narrow x) → widthFailure i = none) ∧
     (∀ before x after, i.steps = before ++ x :: after → narrow x → (∀ y ∈ before, ¬narrow y) →
       widthFailure i = some (.width 1#8 (byteOfNat before.length))) ∧
     ((∀ r ∈ i.limit, ¬entry scope r) → scopeFailure i = none) ∧
     (∀ before r after, i.limit = before ++ r :: after → entry scope r → (∀ y ∈ before, ¬entry scope y) →
       scopeFailure i = some (.scope 4#8 (byteOfNat before.length))) ∧
     ((∀ r ∈ i.limit, ¬entry (fun e => e.action = none) r) → actionFailure i = none) ∧
     (∀ before r after, i.limit = before ++ r :: after → entry (fun e => e.action = none) r →
       (∀ y ∈ before, ¬entry (fun e => e.action = none) y) →
       actionFailure i = some (.actionIndex 4#8 (byteOfNat before.length))) ∧
     (rolesFailure i =
       if role .K2 = role .K1 then some (.roles 6#8 1#8)
       else if role .K3 = role .K1 ∨ role .K3 = role .K2 then some (.roles 6#8 2#8)
       else if role .K4 = role .K1 ∨ role .K4 = role .K2 ∨ role .K4 = role .K3 then some (.roles 6#8 3#8) else none) ∧
     (windowFailure i = if i.shared.wmax ≤ i.shared.wmin then some (.window 6#8 4#8) else none) ∧
     (prechargeFailure i =
       if i.shared.prechargeMaximum ≤ i.shared.prechargeMinimum then some (.precharge 6#8 4#8) else none) ∧
     (checkFailure i identity epoch word = if crc32 (bytes64 identity ++ bytes32 epoch ++ i.records.flatten) = word then none
       else some .check))) ∧
  (∀ (i : Image) (identity : BitVec 64) (bytes : List Byte) (bit : BitVec 32 → BitVec 32),
    bit = (fun c => if c.getLsbD 0 then (c >>> 1) ^^^ 0xEDB88320#32 else c >>> 1) →
    crc32 bytes = ~~~ bytes.foldl (fun (c : BitVec 32) (b : Byte) =>
      bit (bit (bit (bit (bit (bit (bit (bit (c ^^^ b.zeroExtend 32))))))))) 0xFFFFFFFF#32 ∧
    crc32 [0x31#8, 0x32#8, 0x33#8, 0x34#8, 0x35#8, 0x36#8, 0x37#8, 0x38#8, 0x39#8] = 0xCBF43926#32 ∧
    bytes64 identity = bytes32 ((identity >>> 32).truncate 32) ++ bytes32 (identity.truncate 32) ∧
    i.records = i.schedule ++ i.chainTiming ++ i.nodePlan ++ i.limit ++ i.action ++ i.contactor ++ i.capture ++ i.patrol ++
      i.options ∧
    (∀ (r : Record) (n : Nat), byteAt r n = (r.getD n 0#8).toNat ∧ i.limitEntry n = readLimit (i.limit.getD n [])))

/-- R163, R164: the end of writing begins the read-back; a fault of the store while programming fails the commit. At the end of
read-back the commit fails with reason VERIFY when the word of the target slot is not the one kept or the store has reported a fault;
otherwise the slot becomes VALID with the staged epoch and the kept word, the floor becomes that epoch, nothing is staged and the apply
is pending, or carried out at once in UNCONFIGURED. The model's choices: that the cells of the slot are the operand of the end of writing
is entry 10; that a fault during the read-back is kept until its end is entry 35; that a slot that becomes INVALID
keeps its check word is entry 48.
R30, R68, R134, R167: the apply: the working image, epoch and slot are those of the slot the swap wrote, and every limit entry is NORMAL
with run count 0; the Node Tables, chain A first (entry 42), keep the entries of positions with the same counts, take fresh ones for the
rest, and a changed plan requests a survey; an armed window keeps its reference and takes the new expiry, a TIMEOUT being taken where
that is past; from UNCONFIGURED the bridge becomes RUN and the cursor starts; the update is CLOSED with COMMIT_DONE as outcome and notice.
Nothing else changes where no TIMEOUT is taken and the bridge is not UNCONFIGURED.
That one working image stands for every block's copy, and that the slot of an apply is the VALID one of the floor's epoch, is
entry 32 (DEDUCED).
The two slots, and the erased one. -/
def Obligations.CommitEndsAndApplies : Prop :=
  ((∀ (s : State) (k : Slot) (e : Epoch) (i : Image), s.held = false → s.update.target = some k →
      s.update.stagedEpoch = some e →
      (s.update.state = .writing → exec (.writingEnd i) s = .next { s with
        store := s.store.setSlot k { s.store.slot k with image := i }, update := { s.update with state := .verifying }
        commit := { s.commit with bound := some (s.time + 2000#32) } }) ∧
      (s.update.state = .writing → exec .storeFault s = .next (s.failCommit .verify)) ∧
      (s.update.state = .verifying → exec .storeFault s =
        .next { s with commit := { s.commit with storeFault := true } }) ∧
      (s.failCommit .verify = ({ s with
        store := s.store.setSlot k { s.store.slot k with state := .invalid }
        update := { s.update with
          state := .closed, staging := none, stagedEpoch := none, idleExpiry := none, target := none
          lastOutcome := some (.commitFailed .verify, s.time) }
        commit := .none } : State).notify (.commitFailed .verify (some e))) ∧
      (s.update.state = .verifying →
        s.commit.storeFault = true ∨ checkWord s.store.identity (s.store.slot k).epoch (s.store.slot k).image ≠ s.commit.kept →
        exec .readbackEnd s = .next (s.failCommit .verify).finish) ∧
      (∀ u, u = ({ s with
        store := { s.store.setSlot k { s.store.slot k with state := .valid, epoch := e, check := s.commit.kept } with floor := e }
        update := { s.update with
          state := .applyPending, staging := none, stagedEpoch := none, idleExpiry := none, target := none }
        commit := .none } : State) →
        s.update.state = .verifying → s.commit.storeFault = false →
        checkWord s.store.identity (s.store.slot k).epoch (s.store.slot k).image = s.commit.kept →
        (s.sleep.op ≠ .unconfigured → exec .readbackEnd s = .next u.finish) ∧
        (s.sleep.op = .unconfigured → exec .readbackEnd s = .next u.apply.finish))) ∧
   (∀ (v a : State) (k : Slot) (x : SlotContents) (previous : Epoch),
     (k = if v.store.slotA.state = .valid ∧ v.store.slotA.epoch = v.store.floor then .A else .B) → x = v.store.slot k →
     (∀ w, v.working = some w → previous = w.epoch) → (v.working = none → previous = 0#32) →
     a = { v with working := some ⟨x.image, x.epoch, k⟩, limits := List.replicate 64 ⟨.normal, 0, none⟩ } →
     v.apply = (((a.rebuildNodes .A).rebuildNodes .B).refitWindow.leaveUnconfigured).commitDone previous v.cursor.cycles ∧
     (v.sleep.op ≠ .unconfigured → v.window.armed = false ∨
         (∃ r, v.window.reference = some r ∧ reached (r + millis x.image.shared.wmax) v.time = false) →
       ∃ ports link window, v.apply = { a with
         ports := ports, link := link, window := window
         update := { v.update with
           state := .closed, staging := none, stagedEpoch := none, idleExpiry := none, target := none
           lastOutcome := some (.commitDone x.epoch, v.time) } } ∧
         window.armed = v.window.armed ∧ window.reference = v.window.reference ∧
         window.lastGood = v.window.lastGood ∧ window.faults = v.window.faults ∧
         window.earlyIsWmin = v.window.earlyIsWmin)) ∧
   (∀ (w u : State) (i : Image) (c : Chain) (old : List NodeEntry), w.image = some i → old = (w.port c).table →
     u = w.setPort c { w.port c with table := rebuildTable old (i.plan c) } →
     (old.map (fun e => Planned.mk e.position e.cells e.temps) = i.plan c → w.rebuildNodes c = u) ∧
     (old.map (fun e => Planned.mk e.position e.cells e.temps) ≠ i.plan c → w.rebuildNodes c = u.requestSurvey c) ∧
     (¬((u.port c).survey = .idle ∧ u.sleep.op = .run ∧ (u.port c).run = .running) →
       u.requestSurvey c = u.setPort c { u.port c with surveyPending := true }) ∧
     ((u.port c).survey = .idle → u.sleep.op = .run → (u.port c).run = .running → ∀ e rest, (u.port c).table = e :: rest →
       u.requestSurvey c = u.setPort c { u.port c with
         aligned := [], notAligned := [], survey := .echoing e.position
         internal := (u.port c).internal ++ [Order.echo e.position] }) ∧
     (rebuildTable old (i.plan c)).length = (i.plan c).length ∧
     (∀ (n : Nat) (p : Planned), (i.plan c)[n]? = some p → ∃ e, (rebuildTable old (i.plan c))[n]? = some e ∧ e.position = p.position ∧
       e.cells = p.cells ∧ e.temps = p.temps ∧ (e ∈ old ∨
         (e = ⟨p.position, p.cells, p.temps, .unsurveyed, none, none, none, 0, false⟩ ∧
           ∀ d ∈ old, ¬(d.position = p.position ∧ d.cells = p.cells ∧ d.temps = p.temps))))) ∧
   (∀ (w : State) (previous : Epoch) (cycles : BitVec 32),
     (w.window.armed = false ∨ w.window.reference = none → w.refitWindow = w) ∧
     (∀ r u, w.window.armed = true → w.window.reference = some r →
       u = { w with window := { w.window with expiry := some (r + millis w.wmax) } } →
       (reached (r + millis w.wmax) w.time = false → w.refitWindow = u) ∧
       (reached (r + millis w.wmax) w.time = true → w.refitWindow = u.superviseFault .timeout)) ∧
     (w.sleep.op ≠ .unconfigured → w.leaveUnconfigured = w) ∧
     (w.sleep.op = .unconfigured → w.leaveUnconfigured = ((State.beginStep { w with
       sleep := { w.sleep with op := .run }, cursor := ⟨.running, 0, w.time, 0#32⟩ }).pendingSurvey .A).pendingSurvey .B) ∧
     w.commitDone previous cycles = ({ w with update := { w.update with
       state := .closed, staging := none, stagedEpoch := none, idleExpiry := none, target := none
       lastOutcome := some (.commitDone w.workingEpoch, w.time) } } : State).notify
         (.commitDone w.workingEpoch previous cycles))) ∧
  (∀ (x : ImageStore) (c : SlotContents), x.slot .A = x.slotA ∧ x.slot .B = x.slotB ∧
    x.setSlot .A c = { x with slotA := c } ∧ x.setSlot .B c = { x with slotB := c } ∧
    Image.erased = ⟨[], [], [], [], [], [], [], [], []⟩)

/-- R160: the idle expiry in OPEN empties the staging area, closes the window, notices WINDOW_CLOSED with the staged epoch and
writes the last outcome. -/
def Obligations.IdleExpiryClosesWindow : Prop :=
  ∀ (s : State) (due : Instant), s.held = false → s.update.state = .opened → s.update.idleExpiry = some due →
    reached due s.time = true → exec .idleExpiry s = .next (({ s with update := { s.update with
      state := .closed, staging := none, stagedEpoch := none, idleExpiry := none, target := none
      lastOutcome := some (.windowClosed, s.time) } } : State).notify (.windowClosed s.update.stagedEpoch))

/-- R165: UPDATE_ABORT in every state; in WRITING and VERIFYING the commit is abandoned, the target slot becomes INVALID and
COMMIT_FAILED is noticed with reason ABORTED, before or after the DONE.
The model's choices: no rule orders the notice and the DONE (entry 3); the notice carries no epoch (entry 27, DEDUCED); the slot
keeps its check word (entry 48). -/
def Obligations.UpdateAbortAnswers : Prop :=
  ∀ (s : State) (tag : Byte), s.linkReady →
    (s.update.state = .closed ∨ s.update.state = .applyPending →
      exec (.updateAbort tag) s = .next (s.answered tag .refusedState .none)) ∧
    (s.update.state = .opened → exec (.updateAbort tag) s = .next (({ s with update := { s.update with
      state := .closed, staging := none, stagedEpoch := none, idleExpiry := none, target := none } } : State).answered tag
        .done .none)) ∧
    (s.update.state = .validating → exec (.updateAbort tag) s = .next (s.answered tag .busy .none)) ∧
    (∀ k u, s.update.state = .writing ∨ s.update.state = .verifying → s.update.target = some k →
      u = ({ s with
        store := s.store.setSlot k { s.store.slot k with state := .invalid }
        update := { s.update with
          state := .closed, staging := none, stagedEpoch := none, idleExpiry := none, target := none
          lastOutcome := some (.commitFailed .aborted, s.time) }
        commit := .none, free := s.free + 2 } : State) →
      exec (.updateAbort tag) s = .next ((u.answered tag .done .none).notify (.commitFailed .aborted none)) ∨
      exec (.updateAbort tag) s = .next ((u.taken.notify (.commitFailed .aborted none)).queued (.reply tag .done .none)))

/-- R170: TAMPER_CLEAR clears the latch and the flag of the store when TAMP# is inactive and SVC# active; otherwise it is refused
with the reason, and nothing changes. -/
def Obligations.TamperClearAnswers : Prop :=
  ∀ (s : State) (tag : Byte), s.linkReady →
    (s.tampFilter.active = true → exec (.tamperClear tag) s = .next (s.answered tag .refusedState (.reason .tamper))) ∧
    (s.tampFilter.active = false → s.svcFilter.active = false →
      exec (.tamperClear tag) s = .next (s.answered tag .refusedState (.reason .service))) ∧
    (s.tampFilter.active = false → s.svcFilter.active = true → exec (.tamperClear tag) s =
      .next (({ s with
        update := { s.update with latch := false }, store := { s.store with tamperFlag := false } } : State).answered tag
          .done .none))

/-- R168, R169: a new level at TAMP# or SVC# starts a filter of 1 ms and a return ends it; at the expiry the filtered level takes
the pending one, which for an active TAMP# is a tamper event.
R169: a tamper event sets the latch and the flag of the store, and leaves nothing staged unless the swap is made already: an
open window is closed; a commit in VALIDATING is answered LOCKED; one in WRITING or VERIFYING leaves its target slot INVALID,
is the last outcome and is noticed as COMMIT_FAILED for TAMPER. Then a capture is requested, the tamper action of a working image
fires, TAMPER is noticed with the update state it found, unless in a sleep state, and the wake cause is latched. While UNCONFIGURED,
or with no tamper action, no channel moves and the inhibit set stands; an action with its inhibit flag set puts the cause into it.
R89, R90, R91: a capture that is requested: refused where there are three. Else its id is the next id, or the first value after it that
no capture holds; its anchor is the round that is being closed, or else the newest CLOSED record; it holds the anchor and then the newest
of the other CLOSED records, P in all, listed in the order of the ring; each of these gains a holder; its snapshots are as they stand;
and with no post round to come it is COMPLETE, with CAPTURE_DONE.
The model's choices: COMMIT_FAILED has no epoch (entry 27), the slot keeps its check word (entry 48), and the order within
the event (entry 37). -/
def Obligations.TamperAndServiceFilters : Prop :=
  ((∀ (s : State) (active : Bool), s.held = false →
      (s.pins.tamp ≠ active → s.tampFilter.running = true → exec (.tampInputChange active) s = .next { s with
        pins := { s.pins with tamp := active }
        tampFilter := { s.tampFilter with
          pending := if active = s.tampFilter.active then none else some active
          pendingExpiry := if active = s.tampFilter.active then none else some (s.time + 1000#32) } }) ∧
      (s.pins.svc ≠ active → s.svcFilter.running = true → exec (.svcInputChange active) s = .next { s with
        pins := { s.pins with svc := active }
        svcFilter := { s.svcFilter with
          pending := if active = s.svcFilter.active then none else some active
          pendingExpiry := if active = s.svcFilter.active then none else some (s.time + 1000#32) } }) ∧
      (∀ due, s.svcFilter.pendingExpiry = some due → reached due s.time = true → s.svcFilter.pending = some active →
        exec .svcFilterExpiry s = .next { s with
          svcFilter := { s.svcFilter with active := active, pending := none, pendingExpiry := none } }) ∧
      (∀ due u, s.tampFilter.pendingExpiry = some due → reached due s.time = true → s.tampFilter.pending = some active →
        u = ({ s with tampFilter := { s.tampFilter with active := active, pending := none, pendingExpiry := none } } : State) →
        (active = false → exec .tampFilterExpiry s = .next u) ∧
        (active = true → exec .tampFilterExpiry s = .next u.tamperEvent))) ∧
   (∀ s : State,
      s.tamperEvent.update.latch = true ∧ s.tamperEvent.store.tamperFlag = true ∧ s.tamperEvent.store.floor = s.store.floor ∧
      (s.update.state = .closed ∨ s.update.state = .applyPending →
        s.tamperEvent.update = { s.update with latch := true } ∧
        s.tamperEvent.store = { s.store with tamperFlag := true }) ∧
      (s.update.state ≠ .applyPending → s.update.state ≠ .closed → s.tamperEvent.update.state = .closed ∧
        s.tamperEvent.update.staging = none ∧ s.tamperEvent.update.stagedEpoch = none) ∧
      (∀ k, s.update.state = .writing ∨ s.update.state = .verifying → s.update.target = some k →
        (s.tamperEvent.store.slot k).state = .invalid) ∧
      (s.image = none ∨ (∃ i, s.image = some i ∧ i.tamperAction = none) →
        s.tamperEvent.channels = s.channels ∧ s.tamperEvent.inhibit = s.inhibit) ∧
      (∀ i n, s.image = some i → i.tamperAction = some n → (i.actionEntry n).inhibit = true → .tamper ∈ s.tamperEvent.inhibit))) ∧
  (∀ (s u v : State), v = { u with
      update := { u.update with latch := true }, store := { u.store with tamperFlag := true } } →
    ((s.update.state = .closed ∨ s.update.state = .applyPending) ∧ u = s ∨
      s.update.state = .opened ∧ u = { s with update := { s.update with
        state := .closed, staging := none, stagedEpoch := none, idleExpiry := none, target := none } } ∨
      (∃ tag, s.update.state = .validating ∧ s.commit.tag = some tag ∧ u = ({ s with
        update := { s.update with
          state := .closed, staging := none, stagedEpoch := none, idleExpiry := none, target := none }
        commit := .none } : State).reply tag .locked .none) ∨
      (∃ k, (s.update.state = .writing ∨ s.update.state = .verifying) ∧ s.update.target = some k ∧ u = ({ s with
        store := s.store.setSlot k { s.store.slot k with state := .invalid }
        update := { s.update with
          state := .closed, staging := none, stagedEpoch := none, idleExpiry := none, target := none
          lastOutcome := some (.commitFailed .tamper, s.time) }
        commit := .none } : State).notify (.commitFailed .tamper none))) →
    (s.image = none → s.tamperEvent =
      ((v.requestCapture (.action .tamper) none).notifyAwake (.tamper s.update.state)).latch .tamper) ∧
    (∀ i, s.image = some i → s.tamperEvent = (((v.requestCapture (.action .tamper) none).fire i.tamperAction .tamper
      none).notifyAwake (.tamper s.update.state)).latch .tamper)) ∧
  (∀ (s : State) (cause : CaptureCause) (closing anchor : Option RoundNumber) (pre post : Nat)
      (closed chosen : List RoundNumber) (c : Capture),
    (∀ i, s.image = some i → pre = i.capturePre ∧ post = i.capturePost) → (s.image = none → pre = 0 ∧ post = 0) →
    closed = ((s.ring.filter fun r => r.closed || decide (closing = some r.number)).map RoundRecord.number).reverse →
    anchor = closing.or closed.head? →
    chosen = (match anchor with
      | some a => (a :: closed.filter fun n => decide (n ≠ a)).take pre
      | none => []) →
    c = {
      id := freeId (s.captures.list.map Capture.id) 256 s.captures.nextId
      cause := cause, instant := s.time, epoch := s.workingEpoch, pre := pre, post := post, anchor := anchor
      held := (s.ring.filter fun r => decide (r.number ∈ chosen)).map fun r => ⟨r.number, .pre, false⟩
      samples := s.stream.history, stream := s.stream.state
      contactors := ⟨s.snapshot .K1, s.snapshot .K2, s.snapshot .K3, s.snapshot .K4⟩
      sequencer := s.sequencer.state, complete := decide (post = 0) } →
    (3 ≤ s.captures.list.length → s.requestCapture cause closing = ({ s with
      captures := { s.captures with lastRefusal := some (cause, s.time) } } : State).notifyAwake (.captureRefused cause)) ∧
    (s.captures.list.length < 3 → s.newCapture cause closing = c ∧ s.requestCapture cause closing = ({ s with
      captures := { s.captures with list := s.captures.list ++ [c], nextId := if c.id = 0xFF#8 then 1#8 else c.id + 1#8 }
      ring := s.ring.map fun r =>
        if c.held.any fun h => h.number == r.number then { r with holders := r.holders + 1 } else r }
      : State).noticeDone c))

end
end

