-- ==== Sys2Proof/Laws/State.lean ====
section
/-! SUPPORT. One lemma for each field of State after each named update, so that no proof unfolds a record update. -/

namespace Sys2Proof.Machine

variable (s : State)

/-! ### `State.setPort` -/

@[simp] theorem State.setPort_time (c : Chain) (p : ChainPort) : (s.setPort c p).time = s.time := rfl
@[simp] theorem State.setPort_oscillator (c : Chain) (p : ChainPort) : (s.setPort c p).oscillator = s.oscillator := rfl
@[simp] theorem State.setPort_cursor (c : Chain) (p : ChainPort) : (s.setPort c p).cursor = s.cursor := rfl
@[simp] theorem State.setPort_roundCounter (c : Chain) (p : ChainPort) : (s.setPort c p).roundCounter = s.roundCounter := rfl
@[simp] theorem State.setPort_pendingRound (c : Chain) (p : ChainPort) : (s.setPort c p).pendingRound = s.pendingRound := rfl
@[simp] theorem State.setPort_working (c : Chain) (p : ChainPort) : (s.setPort c p).working = s.working := rfl
@[simp] theorem State.setPort_ports (c : Chain) (p : ChainPort) : (s.setPort c p).ports = s.ports.set c p := rfl
@[simp] theorem State.setPort_stream (c : Chain) (p : ChainPort) : (s.setPort c p).stream = s.stream := rfl
@[simp] theorem State.setPort_limits (c : Chain) (p : ChainPort) : (s.setPort c p).limits = s.limits := rfl
@[simp] theorem State.setPort_ring (c : Chain) (p : ChainPort) : (s.setPort c p).ring = s.ring := rfl
@[simp] theorem State.setPort_captures (c : Chain) (p : ChainPort) : (s.setPort c p).captures = s.captures := rfl
@[simp] theorem State.setPort_channels (c : Chain) (p : ChainPort) : (s.setPort c p).channels = s.channels := rfl
@[simp] theorem State.setPort_drives (c : Chain) (p : ChainPort) : (s.setPort c p).drives = s.drives := rfl
@[simp] theorem State.setPort_sequencer (c : Chain) (p : ChainPort) : (s.setPort c p).sequencer = s.sequencer := rfl
@[simp] theorem State.setPort_inhibit (c : Chain) (p : ChainPort) : (s.setPort c p).inhibit = s.inhibit := rfl
@[simp] theorem State.setPort_window (c : Chain) (p : ChainPort) : (s.setPort c p).window = s.window := rfl
@[simp] theorem State.setPort_sleep (c : Chain) (p : ChainPort) : (s.setPort c p).sleep = s.sleep := rfl
@[simp] theorem State.setPort_sleepWork (c : Chain) (p : ChainPort) : (s.setPort c p).sleepWork = s.sleepWork := rfl
@[simp] theorem State.setPort_update (c : Chain) (p : ChainPort) : (s.setPort c p).update = s.update := rfl
@[simp] theorem State.setPort_commit (c : Chain) (p : ChainPort) : (s.setPort c p).commit = s.commit := rfl
@[simp] theorem State.setPort_tampFilter (c : Chain) (p : ChainPort) : (s.setPort c p).tampFilter = s.tampFilter := rfl
@[simp] theorem State.setPort_svcFilter (c : Chain) (p : ChainPort) : (s.setPort c p).svcFilter = s.svcFilter := rfl
@[simp] theorem State.setPort_store (c : Chain) (p : ChainPort) : (s.setPort c p).store = s.store := rfl
@[simp] theorem State.setPort_link (c : Chain) (p : ChainPort) : (s.setPort c p).link = s.link := rfl
@[simp] theorem State.setPort_pins (c : Chain) (p : ChainPort) : (s.setPort c p).pins = s.pins := rfl
@[simp] theorem State.setPort_startup (c : Chain) (p : ChainPort) : (s.setPort c p).startup = s.startup := rfl
@[simp] theorem State.setPort_free (c : Chain) (p : ChainPort) : (s.setPort c p).free = s.free := rfl
@[simp] theorem State.setPort_pending (c : Chain) (p : ChainPort) : (s.setPort c p).pending = s.pending := rfl

/-! ### `State.setChannel` -/

@[simp] theorem State.setChannel_time (k : ChannelId) (x : Channel) : (s.setChannel k x).time = s.time := rfl
@[simp] theorem State.setChannel_oscillator (k : ChannelId) (x : Channel) : (s.setChannel k x).oscillator = s.oscillator := rfl
@[simp] theorem State.setChannel_cursor (k : ChannelId) (x : Channel) : (s.setChannel k x).cursor = s.cursor := rfl
@[simp] theorem State.setChannel_roundCounter (k : ChannelId) (x : Channel) : (s.setChannel k x).roundCounter = s.roundCounter := rfl
@[simp] theorem State.setChannel_pendingRound (k : ChannelId) (x : Channel) : (s.setChannel k x).pendingRound = s.pendingRound := rfl
@[simp] theorem State.setChannel_working (k : ChannelId) (x : Channel) : (s.setChannel k x).working = s.working := rfl
@[simp] theorem State.setChannel_ports (k : ChannelId) (x : Channel) : (s.setChannel k x).ports = s.ports := rfl
@[simp] theorem State.setChannel_stream (k : ChannelId) (x : Channel) : (s.setChannel k x).stream = s.stream := rfl
@[simp] theorem State.setChannel_limits (k : ChannelId) (x : Channel) : (s.setChannel k x).limits = s.limits := rfl
@[simp] theorem State.setChannel_ring (k : ChannelId) (x : Channel) : (s.setChannel k x).ring = s.ring := rfl
@[simp] theorem State.setChannel_captures (k : ChannelId) (x : Channel) : (s.setChannel k x).captures = s.captures := rfl
@[simp] theorem State.setChannel_channels (k : ChannelId) (x : Channel) : (s.setChannel k x).channels = s.channels.set k x := rfl
@[simp] theorem State.setChannel_drives (k : ChannelId) (x : Channel) : (s.setChannel k x).drives = s.drives := rfl
@[simp] theorem State.setChannel_sequencer (k : ChannelId) (x : Channel) : (s.setChannel k x).sequencer = s.sequencer := rfl
@[simp] theorem State.setChannel_inhibit (k : ChannelId) (x : Channel) : (s.setChannel k x).inhibit = s.inhibit := rfl
@[simp] theorem State.setChannel_window (k : ChannelId) (x : Channel) : (s.setChannel k x).window = s.window := rfl
@[simp] theorem State.setChannel_sleep (k : ChannelId) (x : Channel) : (s.setChannel k x).sleep = s.sleep := rfl
@[simp] theorem State.setChannel_sleepWork (k : ChannelId) (x : Channel) : (s.setChannel k x).sleepWork = s.sleepWork := rfl
@[simp] theorem State.setChannel_update (k : ChannelId) (x : Channel) : (s.setChannel k x).update = s.update := rfl
@[simp] theorem State.setChannel_commit (k : ChannelId) (x : Channel) : (s.setChannel k x).commit = s.commit := rfl
@[simp] theorem State.setChannel_tampFilter (k : ChannelId) (x : Channel) : (s.setChannel k x).tampFilter = s.tampFilter := rfl
@[simp] theorem State.setChannel_svcFilter (k : ChannelId) (x : Channel) : (s.setChannel k x).svcFilter = s.svcFilter := rfl
@[simp] theorem State.setChannel_store (k : ChannelId) (x : Channel) : (s.setChannel k x).store = s.store := rfl
@[simp] theorem State.setChannel_link (k : ChannelId) (x : Channel) : (s.setChannel k x).link = s.link := rfl
@[simp] theorem State.setChannel_pins (k : ChannelId) (x : Channel) : (s.setChannel k x).pins = s.pins := rfl
@[simp] theorem State.setChannel_startup (k : ChannelId) (x : Channel) : (s.setChannel k x).startup = s.startup := rfl
@[simp] theorem State.setChannel_free (k : ChannelId) (x : Channel) : (s.setChannel k x).free = s.free := rfl
@[simp] theorem State.setChannel_pending (k : ChannelId) (x : Channel) : (s.setChannel k x).pending = s.pending := rfl

/-! ### `State.setDrive` -/

@[simp] theorem State.setDrive_time (k : ChannelId) (d : Drive) : (s.setDrive k d).time = s.time := rfl
@[simp] theorem State.setDrive_oscillator (k : ChannelId) (d : Drive) : (s.setDrive k d).oscillator = s.oscillator := rfl
@[simp] theorem State.setDrive_cursor (k : ChannelId) (d : Drive) : (s.setDrive k d).cursor = s.cursor := rfl
@[simp] theorem State.setDrive_roundCounter (k : ChannelId) (d : Drive) : (s.setDrive k d).roundCounter = s.roundCounter := rfl
@[simp] theorem State.setDrive_pendingRound (k : ChannelId) (d : Drive) : (s.setDrive k d).pendingRound = s.pendingRound := rfl
@[simp] theorem State.setDrive_working (k : ChannelId) (d : Drive) : (s.setDrive k d).working = s.working := rfl
@[simp] theorem State.setDrive_ports (k : ChannelId) (d : Drive) : (s.setDrive k d).ports = s.ports := rfl
@[simp] theorem State.setDrive_stream (k : ChannelId) (d : Drive) : (s.setDrive k d).stream = s.stream := rfl
@[simp] theorem State.setDrive_limits (k : ChannelId) (d : Drive) : (s.setDrive k d).limits = s.limits := rfl
@[simp] theorem State.setDrive_ring (k : ChannelId) (d : Drive) : (s.setDrive k d).ring = s.ring := rfl
@[simp] theorem State.setDrive_captures (k : ChannelId) (d : Drive) : (s.setDrive k d).captures = s.captures := rfl
@[simp] theorem State.setDrive_channels (k : ChannelId) (d : Drive) : (s.setDrive k d).channels = s.channels := rfl
@[simp] theorem State.setDrive_drives (k : ChannelId) (d : Drive) : (s.setDrive k d).drives = s.drives.set k d := rfl
@[simp] theorem State.setDrive_sequencer (k : ChannelId) (d : Drive) : (s.setDrive k d).sequencer = s.sequencer := rfl
@[simp] theorem State.setDrive_inhibit (k : ChannelId) (d : Drive) : (s.setDrive k d).inhibit = s.inhibit := rfl
@[simp] theorem State.setDrive_window (k : ChannelId) (d : Drive) : (s.setDrive k d).window = s.window := rfl
@[simp] theorem State.setDrive_sleep (k : ChannelId) (d : Drive) : (s.setDrive k d).sleep = s.sleep := rfl
@[simp] theorem State.setDrive_sleepWork (k : ChannelId) (d : Drive) : (s.setDrive k d).sleepWork = s.sleepWork := rfl
@[simp] theorem State.setDrive_update (k : ChannelId) (d : Drive) : (s.setDrive k d).update = s.update := rfl
@[simp] theorem State.setDrive_commit (k : ChannelId) (d : Drive) : (s.setDrive k d).commit = s.commit := rfl
@[simp] theorem State.setDrive_tampFilter (k : ChannelId) (d : Drive) : (s.setDrive k d).tampFilter = s.tampFilter := rfl
@[simp] theorem State.setDrive_svcFilter (k : ChannelId) (d : Drive) : (s.setDrive k d).svcFilter = s.svcFilter := rfl
@[simp] theorem State.setDrive_store (k : ChannelId) (d : Drive) : (s.setDrive k d).store = s.store := rfl
@[simp] theorem State.setDrive_link (k : ChannelId) (d : Drive) : (s.setDrive k d).link = s.link := rfl
@[simp] theorem State.setDrive_pins (k : ChannelId) (d : Drive) : (s.setDrive k d).pins = s.pins := rfl
@[simp] theorem State.setDrive_startup (k : ChannelId) (d : Drive) : (s.setDrive k d).startup = s.startup := rfl
@[simp] theorem State.setDrive_free (k : ChannelId) (d : Drive) : (s.setDrive k d).free = s.free := rfl
@[simp] theorem State.setDrive_pending (k : ChannelId) (d : Drive) : (s.setDrive k d).pending = s.pending := rfl

/-! ### `State.setTracker` -/

@[simp] theorem State.setTracker_time (i : WakeInput) (t : Tracker) : (s.setTracker i t).time = s.time := rfl
@[simp] theorem State.setTracker_oscillator (i : WakeInput) (t : Tracker) : (s.setTracker i t).oscillator = s.oscillator := rfl
@[simp] theorem State.setTracker_cursor (i : WakeInput) (t : Tracker) : (s.setTracker i t).cursor = s.cursor := rfl
@[simp] theorem State.setTracker_roundCounter (i : WakeInput) (t : Tracker) : (s.setTracker i t).roundCounter = s.roundCounter := rfl
@[simp] theorem State.setTracker_pendingRound (i : WakeInput) (t : Tracker) : (s.setTracker i t).pendingRound = s.pendingRound := rfl
@[simp] theorem State.setTracker_working (i : WakeInput) (t : Tracker) : (s.setTracker i t).working = s.working := rfl
@[simp] theorem State.setTracker_ports (i : WakeInput) (t : Tracker) : (s.setTracker i t).ports = s.ports := rfl
@[simp] theorem State.setTracker_stream (i : WakeInput) (t : Tracker) : (s.setTracker i t).stream = s.stream := rfl
@[simp] theorem State.setTracker_limits (i : WakeInput) (t : Tracker) : (s.setTracker i t).limits = s.limits := rfl
@[simp] theorem State.setTracker_ring (i : WakeInput) (t : Tracker) : (s.setTracker i t).ring = s.ring := rfl
@[simp] theorem State.setTracker_captures (i : WakeInput) (t : Tracker) : (s.setTracker i t).captures = s.captures := rfl
@[simp] theorem State.setTracker_channels (i : WakeInput) (t : Tracker) : (s.setTracker i t).channels = s.channels := rfl
@[simp] theorem State.setTracker_drives (i : WakeInput) (t : Tracker) : (s.setTracker i t).drives = s.drives := rfl
@[simp] theorem State.setTracker_sequencer (i : WakeInput) (t : Tracker) : (s.setTracker i t).sequencer = s.sequencer := rfl
@[simp] theorem State.setTracker_inhibit (i : WakeInput) (t : Tracker) : (s.setTracker i t).inhibit = s.inhibit := rfl
@[simp] theorem State.setTracker_window (i : WakeInput) (t : Tracker) : (s.setTracker i t).window = s.window := rfl
@[simp] theorem State.setTracker_sleep (i : WakeInput) (t : Tracker) : (s.setTracker i t).sleep = { s.sleep with trackers := s.sleep.trackers.set i t } := rfl
@[simp] theorem State.setTracker_sleepWork (i : WakeInput) (t : Tracker) : (s.setTracker i t).sleepWork = s.sleepWork := rfl
@[simp] theorem State.setTracker_update (i : WakeInput) (t : Tracker) : (s.setTracker i t).update = s.update := rfl
@[simp] theorem State.setTracker_commit (i : WakeInput) (t : Tracker) : (s.setTracker i t).commit = s.commit := rfl
@[simp] theorem State.setTracker_tampFilter (i : WakeInput) (t : Tracker) : (s.setTracker i t).tampFilter = s.tampFilter := rfl
@[simp] theorem State.setTracker_svcFilter (i : WakeInput) (t : Tracker) : (s.setTracker i t).svcFilter = s.svcFilter := rfl
@[simp] theorem State.setTracker_store (i : WakeInput) (t : Tracker) : (s.setTracker i t).store = s.store := rfl
@[simp] theorem State.setTracker_link (i : WakeInput) (t : Tracker) : (s.setTracker i t).link = s.link := rfl
@[simp] theorem State.setTracker_pins (i : WakeInput) (t : Tracker) : (s.setTracker i t).pins = s.pins := rfl
@[simp] theorem State.setTracker_startup (i : WakeInput) (t : Tracker) : (s.setTracker i t).startup = s.startup := rfl
@[simp] theorem State.setTracker_free (i : WakeInput) (t : Tracker) : (s.setTracker i t).free = s.free := rfl
@[simp] theorem State.setTracker_pending (i : WakeInput) (t : Tracker) : (s.setTracker i t).pending = s.pending := rfl

/-! ### `State.setSequencer` -/

@[simp] theorem State.setSequencer_time (f : Sequencer → Sequencer) : (s.setSequencer f).time = s.time := rfl
@[simp] theorem State.setSequencer_oscillator (f : Sequencer → Sequencer) : (s.setSequencer f).oscillator = s.oscillator := rfl
@[simp] theorem State.setSequencer_cursor (f : Sequencer → Sequencer) : (s.setSequencer f).cursor = s.cursor := rfl
@[simp] theorem State.setSequencer_roundCounter (f : Sequencer → Sequencer) : (s.setSequencer f).roundCounter = s.roundCounter := rfl
@[simp] theorem State.setSequencer_pendingRound (f : Sequencer → Sequencer) : (s.setSequencer f).pendingRound = s.pendingRound := rfl
@[simp] theorem State.setSequencer_working (f : Sequencer → Sequencer) : (s.setSequencer f).working = s.working := rfl
@[simp] theorem State.setSequencer_ports (f : Sequencer → Sequencer) : (s.setSequencer f).ports = s.ports := rfl
@[simp] theorem State.setSequencer_stream (f : Sequencer → Sequencer) : (s.setSequencer f).stream = s.stream := rfl
@[simp] theorem State.setSequencer_limits (f : Sequencer → Sequencer) : (s.setSequencer f).limits = s.limits := rfl
@[simp] theorem State.setSequencer_ring (f : Sequencer → Sequencer) : (s.setSequencer f).ring = s.ring := rfl
@[simp] theorem State.setSequencer_captures (f : Sequencer → Sequencer) : (s.setSequencer f).captures = s.captures := rfl
@[simp] theorem State.setSequencer_channels (f : Sequencer → Sequencer) : (s.setSequencer f).channels = s.channels := rfl
@[simp] theorem State.setSequencer_drives (f : Sequencer → Sequencer) : (s.setSequencer f).drives = s.drives := rfl
@[simp] theorem State.setSequencer_sequencer (f : Sequencer → Sequencer) : (s.setSequencer f).sequencer = f s.sequencer := rfl
@[simp] theorem State.setSequencer_inhibit (f : Sequencer → Sequencer) : (s.setSequencer f).inhibit = s.inhibit := rfl
@[simp] theorem State.setSequencer_window (f : Sequencer → Sequencer) : (s.setSequencer f).window = s.window := rfl
@[simp] theorem State.setSequencer_sleep (f : Sequencer → Sequencer) : (s.setSequencer f).sleep = s.sleep := rfl
@[simp] theorem State.setSequencer_sleepWork (f : Sequencer → Sequencer) : (s.setSequencer f).sleepWork = s.sleepWork := rfl
@[simp] theorem State.setSequencer_update (f : Sequencer → Sequencer) : (s.setSequencer f).update = s.update := rfl
@[simp] theorem State.setSequencer_commit (f : Sequencer → Sequencer) : (s.setSequencer f).commit = s.commit := rfl
@[simp] theorem State.setSequencer_tampFilter (f : Sequencer → Sequencer) : (s.setSequencer f).tampFilter = s.tampFilter := rfl
@[simp] theorem State.setSequencer_svcFilter (f : Sequencer → Sequencer) : (s.setSequencer f).svcFilter = s.svcFilter := rfl
@[simp] theorem State.setSequencer_store (f : Sequencer → Sequencer) : (s.setSequencer f).store = s.store := rfl
@[simp] theorem State.setSequencer_link (f : Sequencer → Sequencer) : (s.setSequencer f).link = s.link := rfl
@[simp] theorem State.setSequencer_pins (f : Sequencer → Sequencer) : (s.setSequencer f).pins = s.pins := rfl
@[simp] theorem State.setSequencer_startup (f : Sequencer → Sequencer) : (s.setSequencer f).startup = s.startup := rfl
@[simp] theorem State.setSequencer_free (f : Sequencer → Sequencer) : (s.setSequencer f).free = s.free := rfl
@[simp] theorem State.setSequencer_pending (f : Sequencer → Sequencer) : (s.setSequencer f).pending = s.pending := rfl

/-! ### `State.setSleep` -/

@[simp] theorem State.setSleep_time (f : SleepController → SleepController) : (s.setSleep f).time = s.time := rfl
@[simp] theorem State.setSleep_oscillator (f : SleepController → SleepController) : (s.setSleep f).oscillator = s.oscillator := rfl
@[simp] theorem State.setSleep_cursor (f : SleepController → SleepController) : (s.setSleep f).cursor = s.cursor := rfl
@[simp] theorem State.setSleep_roundCounter (f : SleepController → SleepController) : (s.setSleep f).roundCounter = s.roundCounter := rfl
@[simp] theorem State.setSleep_pendingRound (f : SleepController → SleepController) : (s.setSleep f).pendingRound = s.pendingRound := rfl
@[simp] theorem State.setSleep_working (f : SleepController → SleepController) : (s.setSleep f).working = s.working := rfl
@[simp] theorem State.setSleep_ports (f : SleepController → SleepController) : (s.setSleep f).ports = s.ports := rfl
@[simp] theorem State.setSleep_stream (f : SleepController → SleepController) : (s.setSleep f).stream = s.stream := rfl
@[simp] theorem State.setSleep_limits (f : SleepController → SleepController) : (s.setSleep f).limits = s.limits := rfl
@[simp] theorem State.setSleep_ring (f : SleepController → SleepController) : (s.setSleep f).ring = s.ring := rfl
@[simp] theorem State.setSleep_captures (f : SleepController → SleepController) : (s.setSleep f).captures = s.captures := rfl
@[simp] theorem State.setSleep_channels (f : SleepController → SleepController) : (s.setSleep f).channels = s.channels := rfl
@[simp] theorem State.setSleep_drives (f : SleepController → SleepController) : (s.setSleep f).drives = s.drives := rfl
@[simp] theorem State.setSleep_sequencer (f : SleepController → SleepController) : (s.setSleep f).sequencer = s.sequencer := rfl
@[simp] theorem State.setSleep_inhibit (f : SleepController → SleepController) : (s.setSleep f).inhibit = s.inhibit := rfl
@[simp] theorem State.setSleep_window (f : SleepController → SleepController) : (s.setSleep f).window = s.window := rfl
@[simp] theorem State.setSleep_sleep (f : SleepController → SleepController) : (s.setSleep f).sleep = f s.sleep := rfl
@[simp] theorem State.setSleep_sleepWork (f : SleepController → SleepController) : (s.setSleep f).sleepWork = s.sleepWork := rfl
@[simp] theorem State.setSleep_update (f : SleepController → SleepController) : (s.setSleep f).update = s.update := rfl
@[simp] theorem State.setSleep_commit (f : SleepController → SleepController) : (s.setSleep f).commit = s.commit := rfl
@[simp] theorem State.setSleep_tampFilter (f : SleepController → SleepController) : (s.setSleep f).tampFilter = s.tampFilter := rfl
@[simp] theorem State.setSleep_svcFilter (f : SleepController → SleepController) : (s.setSleep f).svcFilter = s.svcFilter := rfl
@[simp] theorem State.setSleep_store (f : SleepController → SleepController) : (s.setSleep f).store = s.store := rfl
@[simp] theorem State.setSleep_link (f : SleepController → SleepController) : (s.setSleep f).link = s.link := rfl
@[simp] theorem State.setSleep_pins (f : SleepController → SleepController) : (s.setSleep f).pins = s.pins := rfl
@[simp] theorem State.setSleep_startup (f : SleepController → SleepController) : (s.setSleep f).startup = s.startup := rfl
@[simp] theorem State.setSleep_free (f : SleepController → SleepController) : (s.setSleep f).free = s.free := rfl
@[simp] theorem State.setSleep_pending (f : SleepController → SleepController) : (s.setSleep f).pending = s.pending := rfl

/-! ### `State.setSleepWork` -/

@[simp] theorem State.setSleepWork_time (f : SleepWork → SleepWork) : (s.setSleepWork f).time = s.time := rfl
@[simp] theorem State.setSleepWork_oscillator (f : SleepWork → SleepWork) : (s.setSleepWork f).oscillator = s.oscillator := rfl
@[simp] theorem State.setSleepWork_cursor (f : SleepWork → SleepWork) : (s.setSleepWork f).cursor = s.cursor := rfl
@[simp] theorem State.setSleepWork_roundCounter (f : SleepWork → SleepWork) : (s.setSleepWork f).roundCounter = s.roundCounter := rfl
@[simp] theorem State.setSleepWork_pendingRound (f : SleepWork → SleepWork) : (s.setSleepWork f).pendingRound = s.pendingRound := rfl
@[simp] theorem State.setSleepWork_working (f : SleepWork → SleepWork) : (s.setSleepWork f).working = s.working := rfl
@[simp] theorem State.setSleepWork_ports (f : SleepWork → SleepWork) : (s.setSleepWork f).ports = s.ports := rfl
@[simp] theorem State.setSleepWork_stream (f : SleepWork → SleepWork) : (s.setSleepWork f).stream = s.stream := rfl
@[simp] theorem State.setSleepWork_limits (f : SleepWork → SleepWork) : (s.setSleepWork f).limits = s.limits := rfl
@[simp] theorem State.setSleepWork_ring (f : SleepWork → SleepWork) : (s.setSleepWork f).ring = s.ring := rfl
@[simp] theorem State.setSleepWork_captures (f : SleepWork → SleepWork) : (s.setSleepWork f).captures = s.captures := rfl
@[simp] theorem State.setSleepWork_channels (f : SleepWork → SleepWork) : (s.setSleepWork f).channels = s.channels := rfl
@[simp] theorem State.setSleepWork_drives (f : SleepWork → SleepWork) : (s.setSleepWork f).drives = s.drives := rfl
@[simp] theorem State.setSleepWork_sequencer (f : SleepWork → SleepWork) : (s.setSleepWork f).sequencer = s.sequencer := rfl
@[simp] theorem State.setSleepWork_inhibit (f : SleepWork → SleepWork) : (s.setSleepWork f).inhibit = s.inhibit := rfl
@[simp] theorem State.setSleepWork_window (f : SleepWork → SleepWork) : (s.setSleepWork f).window = s.window := rfl
@[simp] theorem State.setSleepWork_sleep (f : SleepWork → SleepWork) : (s.setSleepWork f).sleep = s.sleep := rfl
@[simp] theorem State.setSleepWork_sleepWork (f : SleepWork → SleepWork) : (s.setSleepWork f).sleepWork = f s.sleepWork := rfl
@[simp] theorem State.setSleepWork_update (f : SleepWork → SleepWork) : (s.setSleepWork f).update = s.update := rfl
@[simp] theorem State.setSleepWork_commit (f : SleepWork → SleepWork) : (s.setSleepWork f).commit = s.commit := rfl
@[simp] theorem State.setSleepWork_tampFilter (f : SleepWork → SleepWork) : (s.setSleepWork f).tampFilter = s.tampFilter := rfl
@[simp] theorem State.setSleepWork_svcFilter (f : SleepWork → SleepWork) : (s.setSleepWork f).svcFilter = s.svcFilter := rfl
@[simp] theorem State.setSleepWork_store (f : SleepWork → SleepWork) : (s.setSleepWork f).store = s.store := rfl
@[simp] theorem State.setSleepWork_link (f : SleepWork → SleepWork) : (s.setSleepWork f).link = s.link := rfl
@[simp] theorem State.setSleepWork_pins (f : SleepWork → SleepWork) : (s.setSleepWork f).pins = s.pins := rfl
@[simp] theorem State.setSleepWork_startup (f : SleepWork → SleepWork) : (s.setSleepWork f).startup = s.startup := rfl
@[simp] theorem State.setSleepWork_free (f : SleepWork → SleepWork) : (s.setSleepWork f).free = s.free := rfl
@[simp] theorem State.setSleepWork_pending (f : SleepWork → SleepWork) : (s.setSleepWork f).pending = s.pending := rfl

/-! ### `State.setUpdate` -/

@[simp] theorem State.setUpdate_time (f : UpdateEngine → UpdateEngine) : (s.setUpdate f).time = s.time := rfl
@[simp] theorem State.setUpdate_oscillator (f : UpdateEngine → UpdateEngine) : (s.setUpdate f).oscillator = s.oscillator := rfl
@[simp] theorem State.setUpdate_cursor (f : UpdateEngine → UpdateEngine) : (s.setUpdate f).cursor = s.cursor := rfl
@[simp] theorem State.setUpdate_roundCounter (f : UpdateEngine → UpdateEngine) : (s.setUpdate f).roundCounter = s.roundCounter := rfl
@[simp] theorem State.setUpdate_pendingRound (f : UpdateEngine → UpdateEngine) : (s.setUpdate f).pendingRound = s.pendingRound := rfl
@[simp] theorem State.setUpdate_working (f : UpdateEngine → UpdateEngine) : (s.setUpdate f).working = s.working := rfl
@[simp] theorem State.setUpdate_ports (f : UpdateEngine → UpdateEngine) : (s.setUpdate f).ports = s.ports := rfl
@[simp] theorem State.setUpdate_stream (f : UpdateEngine → UpdateEngine) : (s.setUpdate f).stream = s.stream := rfl
@[simp] theorem State.setUpdate_limits (f : UpdateEngine → UpdateEngine) : (s.setUpdate f).limits = s.limits := rfl
@[simp] theorem State.setUpdate_ring (f : UpdateEngine → UpdateEngine) : (s.setUpdate f).ring = s.ring := rfl
@[simp] theorem State.setUpdate_captures (f : UpdateEngine → UpdateEngine) : (s.setUpdate f).captures = s.captures := rfl
@[simp] theorem State.setUpdate_channels (f : UpdateEngine → UpdateEngine) : (s.setUpdate f).channels = s.channels := rfl
@[simp] theorem State.setUpdate_drives (f : UpdateEngine → UpdateEngine) : (s.setUpdate f).drives = s.drives := rfl
@[simp] theorem State.setUpdate_sequencer (f : UpdateEngine → UpdateEngine) : (s.setUpdate f).sequencer = s.sequencer := rfl
@[simp] theorem State.setUpdate_inhibit (f : UpdateEngine → UpdateEngine) : (s.setUpdate f).inhibit = s.inhibit := rfl
@[simp] theorem State.setUpdate_window (f : UpdateEngine → UpdateEngine) : (s.setUpdate f).window = s.window := rfl
@[simp] theorem State.setUpdate_sleep (f : UpdateEngine → UpdateEngine) : (s.setUpdate f).sleep = s.sleep := rfl
@[simp] theorem State.setUpdate_sleepWork (f : UpdateEngine → UpdateEngine) : (s.setUpdate f).sleepWork = s.sleepWork := rfl
@[simp] theorem State.setUpdate_update (f : UpdateEngine → UpdateEngine) : (s.setUpdate f).update = f s.update := rfl
@[simp] theorem State.setUpdate_commit (f : UpdateEngine → UpdateEngine) : (s.setUpdate f).commit = s.commit := rfl
@[simp] theorem State.setUpdate_tampFilter (f : UpdateEngine → UpdateEngine) : (s.setUpdate f).tampFilter = s.tampFilter := rfl
@[simp] theorem State.setUpdate_svcFilter (f : UpdateEngine → UpdateEngine) : (s.setUpdate f).svcFilter = s.svcFilter := rfl
@[simp] theorem State.setUpdate_store (f : UpdateEngine → UpdateEngine) : (s.setUpdate f).store = s.store := rfl
@[simp] theorem State.setUpdate_link (f : UpdateEngine → UpdateEngine) : (s.setUpdate f).link = s.link := rfl
@[simp] theorem State.setUpdate_pins (f : UpdateEngine → UpdateEngine) : (s.setUpdate f).pins = s.pins := rfl
@[simp] theorem State.setUpdate_startup (f : UpdateEngine → UpdateEngine) : (s.setUpdate f).startup = s.startup := rfl
@[simp] theorem State.setUpdate_free (f : UpdateEngine → UpdateEngine) : (s.setUpdate f).free = s.free := rfl
@[simp] theorem State.setUpdate_pending (f : UpdateEngine → UpdateEngine) : (s.setUpdate f).pending = s.pending := rfl

/-! ### `State.setSlot` -/

@[simp] theorem State.setSlot_time (k : Slot) (f : SlotContents → SlotContents) : (s.setSlot k f).time = s.time := rfl
@[simp] theorem State.setSlot_oscillator (k : Slot) (f : SlotContents → SlotContents) : (s.setSlot k f).oscillator = s.oscillator := rfl
@[simp] theorem State.setSlot_cursor (k : Slot) (f : SlotContents → SlotContents) : (s.setSlot k f).cursor = s.cursor := rfl
@[simp] theorem State.setSlot_roundCounter (k : Slot) (f : SlotContents → SlotContents) : (s.setSlot k f).roundCounter = s.roundCounter := rfl
@[simp] theorem State.setSlot_pendingRound (k : Slot) (f : SlotContents → SlotContents) : (s.setSlot k f).pendingRound = s.pendingRound := rfl
@[simp] theorem State.setSlot_working (k : Slot) (f : SlotContents → SlotContents) : (s.setSlot k f).working = s.working := rfl
@[simp] theorem State.setSlot_ports (k : Slot) (f : SlotContents → SlotContents) : (s.setSlot k f).ports = s.ports := rfl
@[simp] theorem State.setSlot_stream (k : Slot) (f : SlotContents → SlotContents) : (s.setSlot k f).stream = s.stream := rfl
@[simp] theorem State.setSlot_limits (k : Slot) (f : SlotContents → SlotContents) : (s.setSlot k f).limits = s.limits := rfl
@[simp] theorem State.setSlot_ring (k : Slot) (f : SlotContents → SlotContents) : (s.setSlot k f).ring = s.ring := rfl
@[simp] theorem State.setSlot_captures (k : Slot) (f : SlotContents → SlotContents) : (s.setSlot k f).captures = s.captures := rfl
@[simp] theorem State.setSlot_channels (k : Slot) (f : SlotContents → SlotContents) : (s.setSlot k f).channels = s.channels := rfl
@[simp] theorem State.setSlot_drives (k : Slot) (f : SlotContents → SlotContents) : (s.setSlot k f).drives = s.drives := rfl
@[simp] theorem State.setSlot_sequencer (k : Slot) (f : SlotContents → SlotContents) : (s.setSlot k f).sequencer = s.sequencer := rfl
@[simp] theorem State.setSlot_inhibit (k : Slot) (f : SlotContents → SlotContents) : (s.setSlot k f).inhibit = s.inhibit := rfl
@[simp] theorem State.setSlot_window (k : Slot) (f : SlotContents → SlotContents) : (s.setSlot k f).window = s.window := rfl
@[simp] theorem State.setSlot_sleep (k : Slot) (f : SlotContents → SlotContents) : (s.setSlot k f).sleep = s.sleep := rfl
@[simp] theorem State.setSlot_sleepWork (k : Slot) (f : SlotContents → SlotContents) : (s.setSlot k f).sleepWork = s.sleepWork := rfl
@[simp] theorem State.setSlot_update (k : Slot) (f : SlotContents → SlotContents) : (s.setSlot k f).update = s.update := rfl
@[simp] theorem State.setSlot_commit (k : Slot) (f : SlotContents → SlotContents) : (s.setSlot k f).commit = s.commit := rfl
@[simp] theorem State.setSlot_tampFilter (k : Slot) (f : SlotContents → SlotContents) : (s.setSlot k f).tampFilter = s.tampFilter := rfl
@[simp] theorem State.setSlot_svcFilter (k : Slot) (f : SlotContents → SlotContents) : (s.setSlot k f).svcFilter = s.svcFilter := rfl
@[simp] theorem State.setSlot_store (k : Slot) (f : SlotContents → SlotContents) : (s.setSlot k f).store = s.store.setSlot k (f (s.store.slot k)) := rfl
@[simp] theorem State.setSlot_link (k : Slot) (f : SlotContents → SlotContents) : (s.setSlot k f).link = s.link := rfl
@[simp] theorem State.setSlot_pins (k : Slot) (f : SlotContents → SlotContents) : (s.setSlot k f).pins = s.pins := rfl
@[simp] theorem State.setSlot_startup (k : Slot) (f : SlotContents → SlotContents) : (s.setSlot k f).startup = s.startup := rfl
@[simp] theorem State.setSlot_free (k : Slot) (f : SlotContents → SlotContents) : (s.setSlot k f).free = s.free := rfl
@[simp] theorem State.setSlot_pending (k : Slot) (f : SlotContents → SlotContents) : (s.setSlot k f).pending = s.pending := rfl

/-! ### `State.mapRecord` -/

@[simp] theorem State.mapRecord_time (n : RoundNumber) (f : RoundRecord → RoundRecord) : (s.mapRecord n f).time = s.time := rfl
@[simp] theorem State.mapRecord_oscillator (n : RoundNumber) (f : RoundRecord → RoundRecord) : (s.mapRecord n f).oscillator = s.oscillator := rfl
@[simp] theorem State.mapRecord_cursor (n : RoundNumber) (f : RoundRecord → RoundRecord) : (s.mapRecord n f).cursor = s.cursor := rfl
@[simp] theorem State.mapRecord_roundCounter (n : RoundNumber) (f : RoundRecord → RoundRecord) : (s.mapRecord n f).roundCounter = s.roundCounter := rfl
@[simp] theorem State.mapRecord_pendingRound (n : RoundNumber) (f : RoundRecord → RoundRecord) : (s.mapRecord n f).pendingRound = s.pendingRound := rfl
@[simp] theorem State.mapRecord_working (n : RoundNumber) (f : RoundRecord → RoundRecord) : (s.mapRecord n f).working = s.working := rfl
@[simp] theorem State.mapRecord_ports (n : RoundNumber) (f : RoundRecord → RoundRecord) : (s.mapRecord n f).ports = s.ports := rfl
@[simp] theorem State.mapRecord_stream (n : RoundNumber) (f : RoundRecord → RoundRecord) : (s.mapRecord n f).stream = s.stream := rfl
@[simp] theorem State.mapRecord_limits (n : RoundNumber) (f : RoundRecord → RoundRecord) : (s.mapRecord n f).limits = s.limits := rfl
@[simp] theorem State.mapRecord_ring (n : RoundNumber) (f : RoundRecord → RoundRecord) : (s.mapRecord n f).ring = s.ring.map fun r => if r.number == n then f r else r := rfl
@[simp] theorem State.mapRecord_captures (n : RoundNumber) (f : RoundRecord → RoundRecord) : (s.mapRecord n f).captures = s.captures := rfl
@[simp] theorem State.mapRecord_channels (n : RoundNumber) (f : RoundRecord → RoundRecord) : (s.mapRecord n f).channels = s.channels := rfl
@[simp] theorem State.mapRecord_drives (n : RoundNumber) (f : RoundRecord → RoundRecord) : (s.mapRecord n f).drives = s.drives := rfl
@[simp] theorem State.mapRecord_sequencer (n : RoundNumber) (f : RoundRecord → RoundRecord) : (s.mapRecord n f).sequencer = s.sequencer := rfl
@[simp] theorem State.mapRecord_inhibit (n : RoundNumber) (f : RoundRecord → RoundRecord) : (s.mapRecord n f).inhibit = s.inhibit := rfl
@[simp] theorem State.mapRecord_window (n : RoundNumber) (f : RoundRecord → RoundRecord) : (s.mapRecord n f).window = s.window := rfl
@[simp] theorem State.mapRecord_sleep (n : RoundNumber) (f : RoundRecord → RoundRecord) : (s.mapRecord n f).sleep = s.sleep := rfl
@[simp] theorem State.mapRecord_sleepWork (n : RoundNumber) (f : RoundRecord → RoundRecord) : (s.mapRecord n f).sleepWork = s.sleepWork := rfl
@[simp] theorem State.mapRecord_update (n : RoundNumber) (f : RoundRecord → RoundRecord) : (s.mapRecord n f).update = s.update := rfl
@[simp] theorem State.mapRecord_commit (n : RoundNumber) (f : RoundRecord → RoundRecord) : (s.mapRecord n f).commit = s.commit := rfl
@[simp] theorem State.mapRecord_tampFilter (n : RoundNumber) (f : RoundRecord → RoundRecord) : (s.mapRecord n f).tampFilter = s.tampFilter := rfl
@[simp] theorem State.mapRecord_svcFilter (n : RoundNumber) (f : RoundRecord → RoundRecord) : (s.mapRecord n f).svcFilter = s.svcFilter := rfl
@[simp] theorem State.mapRecord_store (n : RoundNumber) (f : RoundRecord → RoundRecord) : (s.mapRecord n f).store = s.store := rfl
@[simp] theorem State.mapRecord_link (n : RoundNumber) (f : RoundRecord → RoundRecord) : (s.mapRecord n f).link = s.link := rfl
@[simp] theorem State.mapRecord_pins (n : RoundNumber) (f : RoundRecord → RoundRecord) : (s.mapRecord n f).pins = s.pins := rfl
@[simp] theorem State.mapRecord_startup (n : RoundNumber) (f : RoundRecord → RoundRecord) : (s.mapRecord n f).startup = s.startup := rfl
@[simp] theorem State.mapRecord_free (n : RoundNumber) (f : RoundRecord → RoundRecord) : (s.mapRecord n f).free = s.free := rfl
@[simp] theorem State.mapRecord_pending (n : RoundNumber) (f : RoundRecord → RoundRecord) : (s.mapRecord n f).pending = s.pending := rfl

/-! ### `State.offer` -/

@[simp] theorem State.offer_time (f : Outbound) : (s.offer f).time = s.time := rfl
@[simp] theorem State.offer_oscillator (f : Outbound) : (s.offer f).oscillator = s.oscillator := rfl
@[simp] theorem State.offer_cursor (f : Outbound) : (s.offer f).cursor = s.cursor := rfl
@[simp] theorem State.offer_roundCounter (f : Outbound) : (s.offer f).roundCounter = s.roundCounter := rfl
@[simp] theorem State.offer_pendingRound (f : Outbound) : (s.offer f).pendingRound = s.pendingRound := rfl
@[simp] theorem State.offer_working (f : Outbound) : (s.offer f).working = s.working := rfl
@[simp] theorem State.offer_ports (f : Outbound) : (s.offer f).ports = s.ports := rfl
@[simp] theorem State.offer_stream (f : Outbound) : (s.offer f).stream = s.stream := rfl
@[simp] theorem State.offer_limits (f : Outbound) : (s.offer f).limits = s.limits := rfl
@[simp] theorem State.offer_ring (f : Outbound) : (s.offer f).ring = s.ring := rfl
@[simp] theorem State.offer_captures (f : Outbound) : (s.offer f).captures = s.captures := rfl
@[simp] theorem State.offer_channels (f : Outbound) : (s.offer f).channels = s.channels := rfl
@[simp] theorem State.offer_drives (f : Outbound) : (s.offer f).drives = s.drives := rfl
@[simp] theorem State.offer_sequencer (f : Outbound) : (s.offer f).sequencer = s.sequencer := rfl
@[simp] theorem State.offer_inhibit (f : Outbound) : (s.offer f).inhibit = s.inhibit := rfl
@[simp] theorem State.offer_window (f : Outbound) : (s.offer f).window = s.window := rfl
@[simp] theorem State.offer_sleep (f : Outbound) : (s.offer f).sleep = s.sleep := rfl
@[simp] theorem State.offer_sleepWork (f : Outbound) : (s.offer f).sleepWork = s.sleepWork := rfl
@[simp] theorem State.offer_update (f : Outbound) : (s.offer f).update = s.update := rfl
@[simp] theorem State.offer_commit (f : Outbound) : (s.offer f).commit = s.commit := rfl
@[simp] theorem State.offer_tampFilter (f : Outbound) : (s.offer f).tampFilter = s.tampFilter := rfl
@[simp] theorem State.offer_svcFilter (f : Outbound) : (s.offer f).svcFilter = s.svcFilter := rfl
@[simp] theorem State.offer_store (f : Outbound) : (s.offer f).store = s.store := rfl
@[simp] theorem State.offer_link (f : Outbound) : (s.offer f).link = s.link.offer f false := rfl
@[simp] theorem State.offer_pins (f : Outbound) : (s.offer f).pins = s.pins := rfl
@[simp] theorem State.offer_startup (f : Outbound) : (s.offer f).startup = s.startup := rfl
@[simp] theorem State.offer_free (f : Outbound) : (s.offer f).free = s.free := rfl
@[simp] theorem State.offer_pending (f : Outbound) : (s.offer f).pending = s.pending := rfl

/-! ### `State.replyFinal` -/

@[simp] theorem State.replyFinal_time (tag : Byte) : (s.replyFinal tag).time = s.time := rfl
@[simp] theorem State.replyFinal_oscillator (tag : Byte) : (s.replyFinal tag).oscillator = s.oscillator := rfl
@[simp] theorem State.replyFinal_cursor (tag : Byte) : (s.replyFinal tag).cursor = s.cursor := rfl
@[simp] theorem State.replyFinal_roundCounter (tag : Byte) : (s.replyFinal tag).roundCounter = s.roundCounter := rfl
@[simp] theorem State.replyFinal_pendingRound (tag : Byte) : (s.replyFinal tag).pendingRound = s.pendingRound := rfl
@[simp] theorem State.replyFinal_working (tag : Byte) : (s.replyFinal tag).working = s.working := rfl
@[simp] theorem State.replyFinal_ports (tag : Byte) : (s.replyFinal tag).ports = s.ports := rfl
@[simp] theorem State.replyFinal_stream (tag : Byte) : (s.replyFinal tag).stream = s.stream := rfl
@[simp] theorem State.replyFinal_limits (tag : Byte) : (s.replyFinal tag).limits = s.limits := rfl
@[simp] theorem State.replyFinal_ring (tag : Byte) : (s.replyFinal tag).ring = s.ring := rfl
@[simp] theorem State.replyFinal_captures (tag : Byte) : (s.replyFinal tag).captures = s.captures := rfl
@[simp] theorem State.replyFinal_channels (tag : Byte) : (s.replyFinal tag).channels = s.channels := rfl
@[simp] theorem State.replyFinal_drives (tag : Byte) : (s.replyFinal tag).drives = s.drives := rfl
@[simp] theorem State.replyFinal_sequencer (tag : Byte) : (s.replyFinal tag).sequencer = s.sequencer := rfl
@[simp] theorem State.replyFinal_inhibit (tag : Byte) : (s.replyFinal tag).inhibit = s.inhibit := rfl
@[simp] theorem State.replyFinal_window (tag : Byte) : (s.replyFinal tag).window = s.window := rfl
@[simp] theorem State.replyFinal_sleep (tag : Byte) : (s.replyFinal tag).sleep = s.sleep := rfl
@[simp] theorem State.replyFinal_sleepWork (tag : Byte) : (s.replyFinal tag).sleepWork = s.sleepWork := rfl
@[simp] theorem State.replyFinal_update (tag : Byte) : (s.replyFinal tag).update = s.update := rfl
@[simp] theorem State.replyFinal_commit (tag : Byte) : (s.replyFinal tag).commit = s.commit := rfl
@[simp] theorem State.replyFinal_tampFilter (tag : Byte) : (s.replyFinal tag).tampFilter = s.tampFilter := rfl
@[simp] theorem State.replyFinal_svcFilter (tag : Byte) : (s.replyFinal tag).svcFilter = s.svcFilter := rfl
@[simp] theorem State.replyFinal_store (tag : Byte) : (s.replyFinal tag).store = s.store := rfl
@[simp] theorem State.replyFinal_link (tag : Byte) : (s.replyFinal tag).link = s.link.offer (.reply tag .done .none) true := rfl
@[simp] theorem State.replyFinal_pins (tag : Byte) : (s.replyFinal tag).pins = s.pins := rfl
@[simp] theorem State.replyFinal_startup (tag : Byte) : (s.replyFinal tag).startup = s.startup := rfl
@[simp] theorem State.replyFinal_free (tag : Byte) : (s.replyFinal tag).free = s.free := rfl
@[simp] theorem State.replyFinal_pending (tag : Byte) : (s.replyFinal tag).pending = s.pending := rfl

/-! ### The frames a block offers, by `State.offer` -/

@[simp] theorem State.reply_eq_offer (t : Byte) (x : ReplyStatus) (r : ResultData) :
    s.reply t x r = s.offer (.reply t x r) := rfl

@[simp] theorem State.refuse_eq_offer (t : Byte) (x : ReplyStatus) (r : Reason) :
    s.refuse t x r = s.offer (.reply t x (.reason r)) := rfl

@[simp] theorem State.notify_eq_offer (n : Notice) : s.notify n = s.offer (.notice n) := rfl

@[simp] theorem State.mapPort_eq_setPort (c : Chain) (f : ChainPort → ChainPort) :
    s.mapPort c f = s.setPort c (f (s.port c)) := rfl

@[simp] theorem State.joinInternal_eq_setPort (c : Chain) (o : Order) :
    s.joinInternal c o = s.setPort c { s.port c with internal := (s.port c).internal ++ [o] } := rfl

@[simp] theorem State.joinForward_eq_setPort (c : Chain) (o : Order) :
    s.joinForward c o = s.setPort c { s.port c with forward := (s.port c).forward ++ [o] } := rfl

/-! ### Reading back what was set -/

@[simp] theorem PerChain.get_set {α : Type} (p : PerChain α) (c d : Chain) (x : α) :
    (p.set c x).get d = if d = c then x else p.get d := by cases c <;> cases d <;> rfl

@[simp] theorem PerChannel.get_set {α : Type} (p : PerChannel α) (k j : ChannelId) (x : α) :
    (p.set k x).get j = if j = k then x else p.get j := by cases k <;> cases j <;> rfl

@[simp] theorem PerWake.get_set {α : Type} (p : PerWake α) (i j : WakeInput) (x : α) :
    (p.set i x).get j = if j = i then x else p.get j := by cases i <;> cases j <;> rfl

@[simp] theorem State.channel_setChannel (k j : ChannelId) (x : Channel) :
    (s.setChannel k x).channel j = if j = k then x else s.channel j := by simp [State.channel]

@[simp] theorem State.port_setPort (c d : Chain) (p : ChainPort) :
    (s.setPort c p).port d = if d = c then p else s.port d := by simp [State.port]

@[simp] theorem State.channel_setDrive (k j : ChannelId) (d : Drive) : (s.setDrive k d).channel j = s.channel j := rfl
@[simp] theorem State.channel_offer (j : ChannelId) (f : Outbound) : (s.offer f).channel j = s.channel j := rfl
@[simp] theorem State.channel_setSequencer (j : ChannelId) (f : Sequencer → Sequencer) :
    (s.setSequencer f).channel j = s.channel j := rfl
@[simp] theorem State.port_offer (c : Chain) (f : Outbound) : (s.offer f).port c = s.port c := rfl

end Sys2Proof.Machine
end

