-- ==== Sys2Proof/Laws/Move.lean ====
section
/-! SUPPORT. What a step can do, said once: the elementary moves of the contactors, the Sequencer, the reclose inhibit
set, the supervision window, the outbound queue, the current history, the captures, the Round Ring and the update. An
invariant over these blocks is proved by looking at each move. -/

namespace Sys2Proof.Machine

/-- What a `quiet` move leaves as it is: the fields that the other moves may change, and whether the blocks are held in reset. -/
def State.guarded (s : State) :
    PerChannel Channel × PerChannel Drive × Sequencer × List Cause × Window × HostLink × UpdateEngine × ImageStore ×
      CurrentStream × CaptureUnit × List RoundRecord × Bool :=
  (s.channels, s.drives, s.sequencer, s.inhibit, s.window, s.link, s.update, s.store, s.stream, s.captures, s.ring, s.held)

inductive Move : State → State → Prop
  /-- No guarded field changes. -/
  | quiet {s t : State} (h : t.guarded = s.guarded) : Move s t
  /-- A frame is offered to the outbound queue (R177). -/
  | offer {s : State} (f : Outbound) (final : Bool) : Move s { s with link := s.link.offer f final }
  /-- A good inbound frame is taken (R175). -/
  | accept {s : State} (h : s.link.takes = true) : Move s { s with link := s.link.accept }
  /-- Frames leave the queue, and the answers owed do not rise. -/
  | link {s : State} (l : HostLink) (hq : l.queue.Sublist s.link.queue) (ho : l.owed ≤ s.link.owed) :
      Move s { s with link := l }
  /-- A current word joins the history (R52). -/
  | word {s : State} (value : BitVec 24) (sequence : Byte) (now : Instant) :
      Move s { s with stream := s.stream.take value sequence now }
  /-- The stream changes its state (R53, R55). -/
  | stream {s : State} (c : CurrentStream) (h : c.history = s.stream.history) : Move s { s with stream := c }
  /-- A capture joins the list (R89). -/
  | capture {s : State} (u : CaptureUnit) (c : Capture) (h : s.captures.list.length < 3)
      (hu : u.list = s.captures.list ++ [c]) : Move s { s with captures := u }
  /-- The captures change or leave (R83, R92, R96). -/
  | captures {s : State} (u : CaptureUnit) (h : u.list.length ≤ s.captures.list.length) : Move s { s with captures := u }
  /-- Records of the ring are written, each keeping its number. -/
  | records {s : State} (f : RoundRecord → RoundRecord) (h : ∀ r, (f r).number = r.number) :
      Move s { s with ring := s.ring.map f }
  /-- A round is placed (R82, R83). -/
  | place {s : State} (r : RoundRecord) : Move s (s.placeRound r)
  /-- Channels change, none of them its state. -/
  | channels {s : State} (cs : PerChannel Channel) (h : ∀ k, (cs.get k).state = (s.channels.get k).state) :
      Move s { s with channels := cs }
  /-- OPEN to PULL_IN, on a close request: never in IDLE, nor while a cause inhibits reclosing (R104, R129). -/
  | pullIn {s : State} (k : ChannelId) (c : Channel) (hc : c.state = .pullIn) (hs : (s.channel k).state = .opened)
      (hi : s.inhibit = []) (hq : s.sequencer.state ≠ .idle) :
      Move s (((s.setChannel k c).setDrive k ⟨true, none⟩).syncWindow)
  /-- PULL_IN to HOLD (R107). -/
  | hold {s : State} (k : ChannelId) (c : Channel) (hc : c.state = .hold) (hs : (s.channel k).state = .pullIn) :
      Move s (s.setChannel k c)
  /-- The hold drive switches (R106). -/
  | pwm {s : State} (k : ChannelId) (d : Drive) (hs : (s.channel k).state = .hold) : Move s (s.setDrive k d)
  /-- PULL_IN or HOLD to DROPOUT (R105, R107, R109). -/
  | dropout {s : State} (k : ChannelId) (c : Channel) (hc : c.state = .dropout)
      (hs : (s.channel k).state.isClosed = true) : Move s (((s.setChannel k c).setDrive k .off).syncWindow)
  /-- DROPOUT to OPEN (R108). -/
  | opened {s : State} (k : ChannelId) (c : Channel) (hc : c.state = .opened) (hs : (s.channel k).state = .dropout) :
      Move s ((s.setChannel k c).syncWindow)
  /-- The window changes without arming or disarming (R132 to R134). -/
  | window {s : State} (w : Window) (h : w.armed = s.window.armed) : Move s { s with window := w }
  /-- The Sequencer changes; it becomes IDLE only with every channel OPEN (R117). -/
  | sequencer {s : State} (q : Sequencer) (h : q.state = .idle → s.allOpen = true ∨ s.sequencer.state = .idle) :
      Move s { s with sequencer := q }
  /-- A cause joins the reclose inhibit set (R76). -/
  | inhibit {s : State} (c : Cause) (h : c ∉ s.inhibit) : Move s { s with inhibit := s.inhibit ++ [c] }
  /-- UPDATE_OPEN is taken (R157). -/
  | windowOpened {s : State} (u : UpdateEngine) (e : Epoch) (hl : s.update.latch = false) (hu : u.latch = false)
      (hs : u.state = .opened) (he : u.stagedEpoch = some e) (hf : s.store.floor < e) : Move s { s with update := u }
  /-- The update goes on with its staged epoch. -/
  | progress {s : State} (u : UpdateEngine) (ho : s.update.state.working = true) (hs : u.state.working = true)
      (he : u.stagedEpoch = s.update.stagedEpoch) (hl : u.latch = s.update.latch) : Move s { s with update := u }
  /-- The update ends, with nothing staged; the latch may be loaded (R155) or keep its value. -/
  | closed {s : State} (u : UpdateEngine) (hs : u.state = .closed) (hg : u.staging = none)
      (he : u.stagedEpoch = none) : Move s { s with update := u }
  /-- The swap (R164). -/
  | swapped {s : State} (hv : s.update.state = .verifying) (x : ImageStore) (u : UpdateEngine)
      (hf : x.floor = s.stagedEpoch) (hs : u.state = .applyPending) (hg : u.staging = none)
      (he : u.stagedEpoch = none) : Move s { s with store := x, update := u }
  /-- The tamper latch is set, with no update under way (R169). -/
  | latch {s : State} (h : s.update.state.working = false) : Move s { s with update := { s.update with latch := true } }
  /-- TAMPER_CLEAR (R170). -/
  | unlatch {s : State} : Move s { s with update := { s.update with latch := false } }
  /-- The slots or the tamper flag change; the floor does not. -/
  | store {s : State} (x : ImageStore) (h : x.floor = s.store.floor) : Move s { s with store := x }

/-- Any number of moves. -/
abbrev Moves : State → State → Prop := Relation.ReflTransGen Move

theorem Moves.refl {s : State} : Moves s s := Relation.ReflTransGen.refl

theorem Moves.one {s t : State} (h : Move s t) : Moves s t := Relation.ReflTransGen.single h

theorem Moves.then {s t u : State} (h : Moves s t) (g : Moves t u) : Moves s u := Relation.ReflTransGen.trans h g

theorem Moves.quiet {s t : State} (h : t.guarded = s.guarded) : Moves s t := .one (.quiet h)

/-- A property that every move keeps is kept by any number of moves. -/
theorem Moves.keeps {P : State → Prop} (h : ∀ s t, Move s t → P s → P t) {s t : State} (m : Moves s t) (p : P s) :
    P t := by
  induction m with
  | refl => exact p
  | tail _ g ih => exact h _ _ g ih

theorem Moves.foldl {α : Type} (g : State → α → State) (h : ∀ s a, Moves s (g s a)) (l : List α) (s : State) :
    Moves s (l.foldl g s) := by
  induction l generalizing s with
  | nil => exact .refl
  | cons a l ih => exact (h s a).then (ih _)

theorem shuffle_perm {α : Type} (k : Nat) (l : List α) : (shuffle k l).Perm l := by
  induction l generalizing k with
  | nil => exact List.Perm.refl _
  | cons x l ih =>
    cases l with
    | nil => exact List.Perm.refl _
    | cons y l =>
      have hl : (shuffle (k + 1) (y :: l)).length = l.length + 1 := (ih (k + 1)).length_eq
      have hi : Config.freeChoice k % (l.length + 2) ≤ (shuffle (k + 1) (y :: l)).length := by
        rw [hl]; have := Nat.mod_lt (Config.freeChoice k) (show 0 < l.length + 2 by omega); omega
      exact (List.perm_insertIdx x _ hi).trans ((ih (k + 1)).cons x)

/-- Changes in a free order, under a condition that each of them keeps. -/
theorem Moves.anyOrderWith (Q : State → Prop) (fs : List (State → State))
    (h : ∀ f ∈ fs, ∀ s, Q s → Moves s (f s) ∧ Q (f s)) (s : State)
    (q : Q { s with free := s.free + fs.length }) : Moves s (s.anyOrder fs) ∧ Q (s.anyOrder fs) := by
  unfold State.anyOrder
  have hm : ∀ f ∈ shuffle s.free fs, ∀ s, Q s → Moves s (f s) ∧ Q (f s) :=
    fun f hf => h f ((shuffle_perm s.free fs).mem_iff.mp hf)
  have start : Moves s { s with free := s.free + fs.length } := .quiet rfl
  generalize shuffle s.free fs = l at hm
  generalize hs : ({ s with free := s.free + fs.length } : State) = s' at q start ⊢
  clear hs
  induction l generalizing s' with
  | nil => exact ⟨start, q⟩
  | cons f l ih =>
    have hf := hm f (by simp) s' q
    exact ih (fun g hg => hm g (by simp [hg])) _ hf.2 (start.then hf.1)

theorem Moves.anyOrder (fs : List (State → State)) (h : ∀ f ∈ fs, ∀ s, Moves s (f s)) (s : State) :
    Moves s (s.anyOrder fs) :=
  (Moves.anyOrderWith (fun _ => True) fs (fun f hf s _ => ⟨h f hf s, trivial⟩) s trivial).1

/-! ### The elementary moves under their names -/

theorem State.offer_moves (s : State) (f : Outbound) : Moves s (s.offer f) := .one (.offer f false)
theorem State.reply_moves (s : State) (t : Byte) (x : ReplyStatus) (r : ResultData) : Moves s (s.reply t x r) :=
  s.offer_moves _
theorem State.refuse_moves (s : State) (t : Byte) (x : ReplyStatus) (r : Reason) : Moves s (s.refuse t x r) :=
  s.offer_moves _
theorem State.notify_moves (s : State) (n : Notice) : Moves s (s.notify n) := s.offer_moves _

theorem State.notifyAwake_moves (s : State) (n : Notice) : Moves s (s.notifyAwake n) := by
  unfold State.notifyAwake
  split <;> first | exact s.notify_moves n | exact .refl

/-- A notice changes the link alone. -/
theorem State.notifyAwake_frame (s : State) (n : Notice) : ∃ l, s.notifyAwake n = { s with link := l } := by
  unfold State.notifyAwake
  split <;> exact ⟨_, rfl⟩

/-- The following of the channels by the window changes the window alone. -/
theorem State.syncWindow_frame (s : State) : ∃ w, s.syncWindow = { s with window := w } := by
  unfold State.syncWindow
  split
  · split
    · exact ⟨_, rfl⟩
    · exact ⟨s.window, rfl⟩
  · split
    · exact ⟨s.window, rfl⟩
    · exact ⟨_, rfl⟩

theorem State.latch_moves (s : State) (c : WakeCause) : Moves s (s.latch c) := by
  unfold State.latch
  split <;> exact .quiet rfl

theorem State.mapRecord_moves (s : State) (n : RoundNumber) (f : RoundRecord → RoundRecord)
    (h : ∀ r, (f r).number = r.number) : Moves s (s.mapRecord n f) :=
  .one (.records (fun r => if r.number == n then f r else r) (fun r => by by_cases g : r.number == n <;> simp [g, h]))

theorem State.mapPort_moves (s : State) (c : Chain) (f : ChainPort → ChainPort) : Moves s (s.mapPort c f) := .quiet rfl
theorem State.setSequencer_moves (s : State) (f : Sequencer → Sequencer)
    (h : (f s.sequencer).state = .idle → s.allOpen = true ∨ s.sequencer.state = .idle) : Moves s (s.setSequencer f) :=
  .one (.sequencer _ h)

theorem State.setChannel_moves (s : State) (k : ChannelId) (c : Channel) (h : c.state = (s.channel k).state) :
    Moves s (s.setChannel k c) := by
  refine .one (.channels (s.channels.set k c) fun j => ?_)
  by_cases g : j = k
  · subst g; simpa [State.channel] using h
  · simp [g]

end Sys2Proof.Machine
end

