-- ==== Sys2Proof/Laws/PowerMoves.lean ====
section
/-! SUPPORT. The moves of the Capture Unit, the Contactor Drivers, the Sequencer, the actions, the window, the Limit
Evaluator and the current stream. -/

namespace Sys2Proof.Machine

/-! ### Captures -/

theorem State.addCapture_moves (s : State) (c : Capture) (h : s.captures.list.length < 3) : Moves s (s.addCapture c) := by
  let u : CaptureUnit := { s.captures with list := s.captures.list ++ [c], nextId := nextIdAfter c.id }
  have h1 : Move s { s with captures := u } := .capture u c h rfl
  have h2 : Move { s with captures := u } (s.addCapture c) :=
    .records (fun r => if c.held.any (fun h => h.number == r.number) then r.hold else r)
      (fun r => by by_cases g : c.held.any (fun h => h.number == r.number) <;> simp [g, RoundRecord.hold])
  exact (Moves.one h1).then (.one h2)

theorem State.noticeDone_moves (s : State) (c : Capture) : Moves s (s.noticeDone c) := by
  unfold State.noticeDone
  split
  · exact s.notifyAwake_moves _
  · exact .refl

theorem State.recordRefusal_moves (s : State) (c : CaptureCause) : Moves s (s.recordRefusal c) :=
  .one (.captures _ (Nat.le_refl _))

theorem State.requestCapture_moves (s : State) (c : CaptureCause) (n : Option RoundNumber) :
    Moves s (s.requestCapture c n) := by
  unfold State.requestCapture
  split
  · rename_i h
    exact (s.addCapture_moves _ h).then (State.noticeDone_moves _ _)
  · exact (s.recordRefusal_moves c).then (State.notifyAwake_moves _ _)

theorem State.takePostRound_moves (s : State) (n : RoundNumber) : Moves s (s.takePostRound n) := by
  unfold State.takePostRound
  let u : CaptureUnit :=
    { s.captures with list := s.captures.list.map fun c => if c.takes n then c.takePost n else c }
  have h1 : Moves s { s with captures := u } := .one (.captures u (by simp [u]))
  have h2 : Moves { s with captures := u } ({ s with captures := u }.mapRecord n fun r =>
      { r with holders := r.holders + (s.captures.list.filter fun c : Capture => c.takes n).length }) :=
    State.mapRecord_moves _ _ _ fun _ => rfl
  exact (h1.then h2).then (Moves.foldl _ (fun s c => s.noticeDone_moves _) _ _)

theorem State.releaseCapture_moves (s : State) (c : Capture) : Moves s (s.releaseCapture c) := by
  let u : CaptureUnit := { s.captures with list := s.captures.list.filter fun d => d.id != c.id }
  have h1 : Move s { s with captures := u } := .captures u (List.length_filter_le _ _)
  have h2 : Move { s with captures := u } (s.releaseCapture c) :=
    .records (fun r => if c.holds r.number then r.release else r)
      (fun r => by by_cases g : c.holds r.number <;> simp [g, RoundRecord.release])
  exact (Moves.one h1).then (.one h2)

/-! ### The channels -/

theorem State.noticeContactor_moves (s : State) (k : ChannelId) (b : ChannelState) (r : ChangeReason) (l : Bool) :
    Moves s (s.noticeContactor k b r l) := s.notifyAwake_moves _

theorem State.enterDropout_moves (s : State) (k : ChannelId) (f : Channel → Channel)
    (h : (s.channel k).state.isClosed = true) : Moves s (s.enterDropout k f) := .one (.dropout k _ rfl h)

theorem State.openRequest_moves (s : State) (k : ChannelId) (r : Requester) (n : Option RoundNumber) :
    Moves s (s.openRequest k r n) := by
  unfold State.openRequest
  dsimp only
  split
  · rename_i h
    have h1 := s.enterDropout_moves k
      (fun c => { c with lastOpening := some ⟨s.time, r, (s.channel k).state, s.currentReport, s.underLoad k⟩ }) h
    have h2 := h1.then (State.noticeContactor_moves _ k (s.channel k).state (.openRequest r) (s.underLoad k))
    split
    · exact h2.then (State.requestCapture_moves _ _ _)
    · exact h2
  · exact .refl

theorem State.openRequests_moves (s : State) (ks : List ChannelId) (r : Requester) (n : Option RoundNumber) :
    Moves s (s.openRequests ks r n) :=
  Moves.anyOrder _ (fun f hf s => by
    obtain ⟨k, _, rfl⟩ := List.mem_map.mp hf
    exact s.openRequest_moves k r n) s

theorem State.closeRequest_moves (s : State) (k : ChannelId) (hi : s.inhibit = [])
    (hq : s.sequencer.state ≠ .idle) : Moves s (s.closeRequest k) := by
  unfold State.closeRequest
  split
  · rename_i h
    have ho : (s.channel k).state = .opened := by
      unfold State.closeAnswer at h
      split at h
      · cases h
      · split at h <;> first | assumption | cases h
    exact (Moves.one (.pullIn k _ rfl ho hi hq)).then (State.noticeContactor_moves _ _ _ _ _)
  · exact .refl
  · exact .refl

/-- What follows a change of channel state changes the window and the outbound queue. -/
theorem State.changed_frame (s : State) (k : ChannelId) (b : ChannelState) (r : ChangeReason) (u : Bool) :
    ∃ w l, s.syncWindow.noticeContactor k b r u = { s with window := w, link := l } := by
  obtain ⟨w, hw⟩ := s.syncWindow_frame
  rw [hw]
  obtain ⟨l, hl⟩ := State.notifyAwake_frame { s with window := w } _
  exact ⟨w, l, hl⟩

/-- A close request changes a channel, its drive, the window and the outbound queue. -/
theorem State.closeRequest_frame (s : State) (k : ChannelId) :
    ∃ c d w l, s.closeRequest k = { s with channels := c, drives := d, window := w, link := l } := by
  unfold State.closeRequest
  split
  · obtain ⟨w, l, h⟩ := State.changed_frame ((s.setChannel k { s.channel k with
      state := .pullIn
      phaseExpiry := some (s.time + millis (match s.profile k with | some p => p.pullIn | none => 0)) }).setDrive k
        ⟨true, none⟩) k .opened .close false
    exact ⟨_, _, w, l, h⟩
  all_goals exact ⟨s.channels, s.drives, s.window, s.link, rfl⟩

theorem State.closeRole_moves (s : State) (r : Role) (hi : s.inhibit = []) (hq : s.sequencer.state ≠ .idle) :
    Moves s (s.closeRole r) := by
  unfold State.closeRole
  split
  · exact s.closeRequest_moves _ hi hq
  · exact .refl

/-! ### The Sequencer -/

theorem State.noticeSequence_moves (s : State) (o : SeqOutcome) (l : Option SeqState) (p : Option Precharge)
    (t : Option Cause) (w : Option Nat) (c : Option CurrentReport) : Moves s (s.noticeSequence o l p t w c) :=
  (s.setSequencer_moves _ fun h => .inr h).then (State.notifyAwake_moves _ _)

theorem State.noticeWithOpenings_moves (s : State) {notice : State → State} (h : ∀ s, Moves s (notice s))
    (ks : List ChannelId) (n : Option RoundNumber) : Moves s (s.noticeWithOpenings notice ks n) := by
  refine Moves.anyOrder _ (fun f hf s => ?_) s
  rcases List.mem_cons.mp hf with rfl | hf
  · exact h s
  · obtain ⟨k, _, rfl⟩ := List.mem_map.mp hf
    exact s.openRequest_moves k _ n

theorem State.enterFailed_moves (s : State) (r : FailReason) (n : Option RoundNumber) :
    Moves s (s.enterFailed r n) := by
  unfold State.enterFailed
  exact (s.setSequencer_moves _ fun h => by cases h).then
    (State.noticeWithOpenings_moves _ (fun s => s.noticeSequence_moves _ _ _ _ _ _) _ n)

theorem State.enterTripped_moves (s : State) (c : Cause) (n : Option RoundNumber) : Moves s (s.enterTripped c n) := by
  unfold State.enterTripped
  exact (s.setSequencer_moves _ fun h => by cases h).then
    (State.noticeWithOpenings_moves _ (fun s => s.noticeSequence_moves _ _ _ _ _ _) _ n)

theorem State.actionOpening_moves (s : State) (c : Cause) (n : Option RoundNumber) :
    Moves s (s.actionOpening c n) := by
  unfold State.actionOpening
  split <;> first | exact .refl | exact s.enterTripped_moves c n

theorem State.enterIdle_moves (s : State) (h : s.allOpen = true) : Moves s s.enterIdle :=
  (s.setSequencer_moves _ fun _ => .inl h).then (State.noticeSequence_moves _ _ _ _ _ _ _)

theorem State.disconnectProgress_moves (s : State) (n : Option RoundNumber) : Moves s (s.disconnectProgress n) := by
  unfold State.disconnectProgress
  split
  · rename_i h
    exact s.enterIdle_moves h
  · split
    · split
      · exact s.openRequest_moves _ _ n
      · exact .refl
    · exact .refl

/-- A close request of the Sequencer to the channel of a role, with the step the Sequencer then takes. -/
theorem State.closeThenSet_moves (s : State) (r : Role) (f : Sequencer → Sequencer) (hi : s.inhibit = [])
    (hq : s.sequencer.state ≠ .idle) (hf : ∀ q, (f q).state ≠ .idle) : Moves s ((s.closeRole r).setSequencer f) :=
  (s.closeRole_moves r hi hq).then (State.setSequencer_moves _ _ fun h => absurd h (hf _))

theorem State.negPulledIn_moves (s : State) (n : Option RoundNumber) (hq : s.sequencer.state ≠ .idle) :
    Moves s (s.negPulledIn n) := by
  unfold State.negPulledIn
  split
  · rename_i h
    exact s.closeThenSet_moves _ _ (by simpa using h) hq fun _ => by simp
  · exact s.enterFailed_moves _ _

theorem State.prePulledIn_moves (s : State) : Moves s s.prePulledIn := by
  unfold State.prePulledIn
  split
  · exact s.setSequencer_moves _ fun h => .inr h
  · exact .refl

theorem State.posPulledIn_moves (s : State) (n : Option RoundNumber) : Moves s (s.posPulledIn n) := by
  unfold State.posPulledIn
  refine Moves.then (t := match s.channelOf .pre with
    | some k => s.openRequest k .sequencer n
    | none => s) ?_ (State.setSequencer_moves _ _ fun h => by cases h)
  split
  · exact s.openRequest_moves _ _ _
  · exact .refl

theorem State.preReleased_moves (s : State) (k : ChannelId) (n : Option RoundNumber) : Moves s (s.preReleased k n) := by
  unfold State.preReleased
  split
  · exact s.enterFailed_moves _ _
  · exact (s.setSequencer_moves _ fun h => by cases h).then (State.noticeSequence_moves _ _ _ _ _ _ _)

theorem State.prechargeEndsWell_moves (s : State) (hq : s.sequencer.state ≠ .idle) : Moves s s.prechargeEndsWell := by
  delta State.prechargeEndsWell
  extract_lets s1
  have h1 : Moves s s1 := s.setSequencer_moves _ fun h => .inr h
  split
  · rename_i h
    exact h1.then (State.closeThenSet_moves _ _ _ (by simpa using h) hq fun _ => by simp)
  · exact h1.then (State.enterFailed_moves _ _ _)

theorem State.sequencerStep_moves (s : State) (k : ChannelId) (r : ChangeReason) (n : Option RoundNumber) :
    Moves s (s.sequencerStep k r n) := by
  unfold State.sequencerStep
  split
  · rename_i h _
    exact s.negPulledIn_moves n (by simp [h])
  · exact s.prePulledIn_moves
  · exact s.posPulledIn_moves n
  · exact s.preReleased_moves k n
  · exact s.disconnectProgress_moves n
  · split
    · rename_i h
      exact s.enterIdle_moves (by simp at h; exact h.2)
    · exact .refl
  · exact .refl

theorem State.sequencerReport_moves (s : State) (k : ChannelId) (r : ChangeReason) (n : Option RoundNumber) :
    Moves s (s.sequencerReport k r n) := by
  unfold State.sequencerReport
  split
  · exact s.enterFailed_moves _ n
  · exact s.sequencerStep_moves k r n

theorem State.faultReport_moves (s : State) (before : SeqState) (k : ChannelId) (r : ChangeReason) :
    Moves s (s.faultReport before k r) := by
  unfold State.faultReport
  split
  · exact s.enterFailed_moves _ none
  · exact s.sequencerReport_moves k r none

theorem State.prechargeWord_moves (s : State) (v : BitVec 24) (g : Bool) : Moves s (s.prechargeWord v g) := by
  unfold State.prechargeWord
  split
  · rename_i p start _ h _
    refine Moves.then (s.setSequencer_moves (fun q =>
      { q with goodWords := goodWordsAfter q.goodWords p.endCurrent v g }) fun h => .inr h) ?_
    dsimp only
    split
    · exact State.prechargeEndsWell_moves _ (by simp [h])
    · exact .refl
  · exact .refl

/-! ### Actions -/

theorem State.inhibitWith_moves (s : State) (c : Cause) : Moves s (s.inhibitWith c) := by
  unfold State.inhibitWith
  split
  · exact .refl
  · rename_i h
    exact .one (.inhibit c h)

theorem State.fire_moves (s : State) (a : Option Nat) (c : Cause) (n : Option RoundNumber) : Moves s (s.fire a c n) := by
  unfold State.fire
  split
  · refine Moves.anyOrder _ (fun f hf s => ?_) s
    simp only [firingEffects, List.mem_append, List.mem_map] at hf
    rcases hf with (((⟨k, _, rfl⟩ | hf) | hf) | hf) | hf
    · exact s.openRequest_moves k _ n
    · split at hf
      · cases hf
      · cases List.mem_singleton.mp hf; exact s.actionOpening_moves c n
    · split at hf
      · cases List.mem_singleton.mp hf; exact s.inhibitWith_moves c
      · cases hf
    · split at hf
      · cases List.mem_singleton.mp hf; exact s.requestCapture_moves _ n
      · cases hf
    · split at hf
      · cases List.mem_singleton.mp hf; exact s.latch_moves _
      · cases hf
  · exact .refl

theorem State.reportFault_moves (s : State) (k : ChannelId) (f : FaultKind) (r : ChangeReason) :
    Moves s (s.reportFault k f r) := by
  unfold State.reportFault
  refine Moves.anyOrder _ (fun g hg s => ?_) s
  rcases List.mem_cons.mp hg with rfl | hg
  · exact s.faultReport_moves _ k r
  · split at hg
    · cases List.mem_singleton.mp hg; exact s.fire_moves _ _ none
    · cases hg

theorem State.dropoutFault_moves (s : State) (k : ChannelId) (f : FaultKind) (r : ChangeReason)
    (m : Channel → Channel) (h : (s.channel k).state.isClosed = true) : Moves s (s.dropoutFault k f r m) :=
  ((s.enterDropout_moves k _ h).then (State.noticeContactor_moves _ _ _ _ _)).then (State.reportFault_moves _ _ _ _)

theorem State.weldInOpen_moves (s : State) (k : ChannelId) : Moves s (s.weldInOpen k) := by
  unfold State.weldInOpen
  dsimp only
  split
  · exact .refl
  · exact ((s.setChannel_moves k _ (by rfl)).then (State.noticeContactor_moves _ _ _ _ _)).then
      (State.reportFault_moves _ _ _ _)

theorem State.unweldInOpen_moves (s : State) (k : ChannelId) : Moves s (s.unweldInOpen k) := by
  unfold State.unweldInOpen
  dsimp only
  split
  · exact ((s.setChannel_moves k _ (by rfl)).then (State.noticeContactor_moves _ _ _ _ _)).then
      (State.sequencerReport_moves _ _ _ _)
  · exact .refl

theorem State.startPwm_moves (s : State) (k : ChannelId) (h : (s.channel k).state = .hold) : Moves s (s.startPwm k) := by
  unfold State.startPwm
  split
  · exact .one (.pwm k _ h)
  · exact .refl

theorem State.pullInEnds_moves (s : State) (k : ChannelId) (h : (s.channel k).state = .pullIn) :
    Moves s (s.pullInEnds k) := by
  unfold State.pullInEnds
  dsimp only
  split
  · exact (((Moves.one (.hold k _ rfl h)).then (State.startPwm_moves _ k (by simp))).then
      (State.noticeContactor_moves _ _ _ _ _)).then (State.sequencerReport_moves _ _ _ _)
  · exact s.dropoutFault_moves _ _ _ _ (by simp [h, ChannelState.isClosed])

theorem State.dropoutEnds_moves (s : State) (k : ChannelId) (h : (s.channel k).state = .dropout) :
    Moves s (s.dropoutEnds k) := by
  unfold State.dropoutEnds
  dsimp only
  split
  · exact ((Moves.one (.opened k _ rfl h)).then (State.noticeContactor_moves _ _ _ _ _)).then
      (State.reportFault_moves _ _ _ _)
  · exact ((Moves.one (.opened k _ rfl h)).then (State.noticeContactor_moves _ _ _ _ _)).then
      (State.sequencerReport_moves _ _ _ _)

theorem State.judgeFeedback_moves (s : State) (k : ChannelId) : Moves s (s.judgeFeedback k) := by
  unfold State.judgeFeedback
  dsimp only
  split
  · rename_i h _
    exact s.dropoutFault_moves _ _ _ _ (by simp [h, ChannelState.isClosed])
  all_goals first | exact s.weldInOpen_moves k | exact s.unweldInOpen_moves k | exact .refl

theorem State.debounceEnds_moves (s : State) (k : ChannelId) : Moves s (s.debounceEnds k) := by
  delta State.debounceEnds
  extract_lets c s1
  have h1 : Moves s s1 := s.setChannel_moves k _ rfl
  split
  · exact h1
  · exact h1.then (State.judgeFeedback_moves _ k)

theorem State.settleEnds_moves (s : State) (k : ChannelId) : Moves s (s.settleEnds k) := by
  delta State.settleEnds
  extract_lets c s1
  have h1 : Moves s s1 := s.setChannel_moves k _ rfl
  split
  · exact h1.then (State.weldInOpen_moves _ k)
  · exact h1

theorem State.pwmStep_moves (s : State) (k : ChannelId) : Moves s (s.pwmStep k) := by
  unfold State.pwmStep
  split
  · rename_i h
    split
    · exact s.startPwm_moves k h
    · split
      · exact .one (.pwm k _ h)
      · exact .refl
  · exact .refl

theorem State.takeRaw_moves (s : State) (k : ChannelId) (b : Bool) : Moves s (s.takeRaw k b) := by
  unfold State.takeRaw
  dsimp only
  split
  · exact .refl
  · exact s.setChannel_moves k _ rfl

theorem State.stopOscillator_moves (s : State) : Moves s s.stopOscillator :=
  Moves.then (.one (.channels s.stopOscillator.channels fun k => by cases k <;> rfl)) (.quiet rfl)

theorem State.resumeChannel_moves (s : State) (k : ChannelId) : Moves s (s.resumeChannel k) :=
  s.setChannel_moves k _ rfl

theorem State.startOscillator_moves (s : State) : Moves s s.startOscillator :=
  ((((Moves.quiet (s := s) (t := { s with oscillator := true }) rfl).then (State.resumeChannel_moves _ .K1)).then
    (State.resumeChannel_moves _ .K2)).then (State.resumeChannel_moves _ .K3)).then (State.resumeChannel_moves _ .K4)

/-! ### The supervision window -/

theorem State.setWindow_moves (s : State) (w : Window) (h : w.armed = s.window.armed) :
    Moves s { s with window := w } := .one (.window w h)

theorem State.superviseFault_moves (s : State) (k : SupervisionFault) : Moves s (s.superviseFault k) := by
  delta State.superviseFault
  extract_lets count expected s1 w s2
  have h2 : Moves s s2 := (s.notify_moves _).then (.one (.window _ rfl))
  split
  · split
    · exact ((h2.then (s2.notify_moves _)).then (State.fire_moves _ _ _ _)).then (State.setWindow_moves _ _ rfl)
    · exact h2
  · exact h2

theorem State.requestSupervise_moves (s : State) (t n : Byte) : Moves s (s.requestSupervise t n) := by
  unfold State.requestSupervise
  dsimp only
  split
  · exact s.reply_moves _ _ _
  · refine Moves.then (t := { s with window := _ }) (s.setWindow_moves _ ?_) (State.reply_moves _ _ _ _)
    rfl
  all_goals
    refine Moves.anyOrder _ (fun f hf s => ?_) s
    simp only [List.mem_cons, List.not_mem_nil, or_false] at hf
    rcases hf with rfl | rfl
    · exact State.reply_moves _ _ _ _
    · exact State.superviseFault_moves _ _

/-! ### Limits and the current stream -/

theorem State.applyVerdict_moves (s : State) (i : Nat) (e : LimitEntry) (f : Finding) (x : LimitSource)
    (n : Option RoundNumber) : Moves s (s.applyVerdict i e f x n) := by
  delta State.applyVerdict
  extract_lets run after written s1
  have h1 : Moves s s1 := .quiet rfl
  split
  · exact (h1.then (State.notifyAwake_moves _ _)).then (State.fire_moves _ _ _ _)
  · exact h1.then (State.notifyAwake_moves _ _)
  · exact h1

theorem evaluateEntry_moves (r : RoundRecord) (a : State × List VerdictItem) (x : LimitEntry × Nat) :
    Moves a.1 (evaluateEntry r a x).1 := by
  unfold evaluateEntry
  split
  · exact State.applyVerdict_moves _ _ _ _ _ _
  · exact .refl

theorem evaluateEntries_moves (r : RoundRecord) (l : List (LimitEntry × Nat)) (a : State × List VerdictItem) :
    Moves a.1 (l.foldl (evaluateEntry r) a).1 := by
  induction l generalizing a with
  | nil => exact .refl
  | cons x l ih => exact (evaluateEntry_moves r a x).then (ih _)

theorem State.evaluateRound_moves (s : State) (n : RoundNumber) : Moves s (s.evaluateRound n) := by
  unfold State.evaluateRound
  split
  · exact (evaluateEntries_moves _ s.limitEntries (s, [])).then (State.mapRecord_moves _ _ _ fun _ => rfl)
  · exact .refl

theorem State.evaluateWord_moves (s : State) (v : BitVec 24) (q : Byte) (a : Instant) :
    Moves s (s.evaluateWord v q a) :=
  Moves.foldl _ (fun s x => by
    split
    · exact s.applyVerdict_moves _ _ _ _ _
    · exact .refl) _ _

theorem State.handWord_moves (s : State) (v : BitVec 24) (q : Byte) (g : Bool) : Moves s (s.handWord v q g) := by
  unfold State.handWord
  refine Moves.anyOrder _ (fun f hf s => ?_) s
  rcases List.mem_append.mp hf with hf | hf
  · split at hf
    · cases List.mem_singleton.mp hf; exact s.evaluateWord_moves _ _ _
    · cases hf
  · split at hf
    · cases List.mem_singleton.mp hf; exact s.prechargeWord_moves _ _
    · cases hf

theorem State.takeWord_moves (s : State) (w : BitVec 32) : Moves s (s.takeWord w) := by
  delta State.takeWord
  split
  · extract_lets value sequence gap lost s1 s2
    have h1 : Moves s s1 := .one (.word _ _ _)
    refine Moves.then (t := s2) ?_ (State.handWord_moves _ _ _ _)
    unfold s2
    split
    · exact h1.then (State.notify_moves _ _)
    · exact h1
  · exact .refl

theorem State.loseStream_moves (s : State) : Moves s s.loseStream := by
  delta State.loseStream
  extract_lets c s1 s2
  have h1 : Moves s s1 := .one (.stream _ rfl)
  have h2 : Moves s s2 := h1.then (s1.notify_moves _)
  split
  · exact h2
  · split
    · exact h2.then (State.fire_moves _ _ _ _)
    · exact h2

end Sys2Proof.Machine
end

