-- ==== Sys2Proof/Laws/RoundMoves.lean ====
section
/-! SUPPORT. The moves of the Node Tables and surveys, the rounds, the arbiter, the Scheduler and the apply. -/

namespace Sys2Proof.Machine

/-! ### Node Tables and surveys -/

theorem State.mapNode_moves (s : State) (c : Chain) (p : Nat) (f : NodeEntry → NodeEntry) : Moves s (s.mapNode c p f) :=
  .quiet rfl

theorem State.joinInternal_moves (s : State) (c : Chain) (o : Order) : Moves s (s.joinInternal c o) := .quiet rfl

theorem State.countReading_moves (s : State) (c : Chain) (e : Option EndCause) (x : Reading) (n : RoundNumber) :
    Moves s (s.countReading c e x n) := by
  delta State.countReading
  split
  · exact .refl
  · split
    · exact .refl
    · extract_lets after s1
      have h1 : Moves s s1 := .quiet rfl
      split
      · exact (h1.then (State.notify_moves _ _)).then (State.fire_moves _ _ _ _)
      · exact h1
    · extract_lets s1
      have h1 : Moves s s1 := .quiet rfl
      split
      · exact h1.then (State.notify_moves _ _)
      · exact h1

theorem State.countPart_moves (s : State) (p : ChainPart) (n : RoundNumber) : Moves s (s.countPart p n) := by
  unfold State.countPart
  split
  · exact Moves.foldl _ (fun s x => s.countReading_moves _ _ _ _) _ _
  · exact .refl

theorem State.countRound_moves (s : State) (n : RoundNumber) : Moves s (s.countRound n) := by
  unfold State.countRound
  split
  · exact Moves.foldl _ (fun s p => s.countPart_moves p n) _ _
  · exact .refl

theorem State.recordSurvey_moves (s : State) (c : Chain) (o : SurveyOutcome) : Moves s (s.recordSurvey c o) := by
  delta State.recordSurvey
  extract_lets p result
  exact Moves.then (t := s.setPort c _) (.quiet rfl) (State.notify_moves _ _)

theorem State.startSurvey_moves (s : State) (c : Chain) : Moves s (s.startSurvey c) := by
  delta State.startSurvey
  extract_lets s1
  have h1 : Moves s s1 := .quiet rfl
  split
  · exact h1.then (.quiet rfl)
  · exact h1.then (State.recordSurvey_moves _ _ _)

theorem State.pendingSurvey_moves (s : State) (c : Chain) : Moves s (s.pendingSurvey c) := by
  unfold State.pendingSurvey
  split
  · exact (State.mapPort_moves _ _ _).then (State.startSurvey_moves _ _)
  · exact .refl

theorem State.beginSurvey_moves (s : State) (c : Chain) : Moves s (s.beginSurvey c) :=
  (s.startSurvey_moves c).then (State.pendingSurvey_moves _ c)

theorem State.requestSurvey_moves (s : State) (c : Chain) : Moves s (s.requestSurvey c) := by
  unfold State.requestSurvey
  split
  · exact s.beginSurvey_moves c
  · exact .quiet rfl

theorem State.endSurvey_moves (s : State) (c : Chain) (o : SurveyOutcome) : Moves s (s.endSurvey c o) :=
  (s.recordSurvey_moves c o).then (State.pendingSurvey_moves _ c)

theorem State.abortSurvey_moves (s : State) (c : Chain) : Moves s (s.abortSurvey c) := by
  unfold State.abortSurvey
  split
  · exact .refl
  · exact s.endSurvey_moves c _

theorem State.surveyNext_moves (s : State) (c : Chain) (p : Nat) (b : Bool) : Moves s (s.surveyNext c p b) := by
  delta State.surveyNext
  extract_lets s1
  have h1 : Moves s s1 := .quiet rfl
  split
  · split
    · exact h1.then (.quiet rfl)
    · exact h1.then (State.endSurvey_moves _ _ _)
  · exact h1

theorem State.echoAnswered_moves (s : State) (c : Chain) (p : Nat) (t : Int) : Moves s (s.echoAnswered c p t) := by
  delta State.echoAnswered
  extract_lets latency holdoff s1
  have h1 : Moves s s1 := .quiet rfl
  split
  · split
    · exact h1.then (.quiet rfl)
    · exact h1
  · exact (h1.then (State.mapNode_moves _ _ _ _)).then (State.surveyNext_moves _ _ _ _)

theorem State.takeNodeFlags_moves (s : State) (c : Chain) (p : Nat) (a b : Bool) (n : RoundNumber) :
    Moves s (s.takeNodeFlags c p a b n) := by
  delta State.takeNodeFlags
  extract_lets s1 s2 s3
  have h1 : Moves s s1 := .quiet rfl
  split
  · have h3 : Moves s s3 :=
      (h1.then (Moves.quiet (t := s2.mapPort c fun p' => p'.unalign p) rfl)).then (State.notify_moves _ _)
    split
    · split
      · exact h3.then (State.requestSurvey_moves _ _)
      · exact h3
    · exact h3
  · exact h1

/-! ### Rounds -/

theorem State.placeRound_moves (s : State) (r : RoundRecord) : Moves s (s.placeRound r) := .one (.place r)

theorem State.writeCurrents_moves (s : State) (n : RoundNumber) : Moves s (s.writeCurrents n) :=
  s.mapRecord_moves n _ fun _ => rfl

theorem State.reportRound_moves (s : State) (n : RoundNumber) : Moves s (s.reportRound n) := by
  unfold State.reportRound
  split
  · exact s.offer_moves _
  · exact .refl

theorem State.finishRound_moves (s : State) (n : RoundNumber) : Moves s (s.finishRound n) := by
  delta State.finishRound
  extract_lets s1
  have h1 : Moves s s1 := s.mapRecord_moves n _ fun _ => rfl
  refine h1.then (Moves.anyOrder _ (fun f hf s => ?_) _)
  rcases List.mem_append.mp hf with hf | hf
  · split at hf
    · cases List.mem_singleton.mp hf; exact s.takePostRound_moves n
    · cases hf
  · split at hf
    · cases List.mem_singleton.mp hf; exact s.reportRound_moves n
    · cases hf

theorem State.closeStages_moves (s : State) (n : RoundNumber) : Moves s (s.closeStages n) :=
  (((s.writeCurrents_moves n).then (State.countRound_moves _ n)).then (State.evaluateRound_moves _ n)).then
    (State.finishRound_moves _ n)

theorem State.settleNew_moves (s : State) (r : RoundRecord) : Moves s (s.settleNew r) := by
  unfold State.settleNew
  split
  · exact s.placeRound_moves r
  · split
    · exact .quiet rfl
    · exact (s.placeRound_moves r).then (State.closeStages_moves _ _)

theorem State.createRound_moves (s : State) (r : RoundRecord) : Moves s (s.createRound r) := by
  delta State.createRound
  extract_lets s1 s2
  have h1 : Moves s s1 := .quiet rfl
  have h2 : Moves s1 s2 := Moves.foldl _ (fun s p => by
    split
    · exact .quiet rfl
    · exact .refl) _ _
  exact (h1.then h2).then (State.settleNew_moves _ _)

theorem mapPart_number (r : RoundRecord) (c : Chain) (f : ChainPart → ChainPart) : (r.mapPart c f).number = r.number :=
  rfl

theorem State.grantClaim_moves (s : State) (c : Chain) : Moves s (s.grantClaim c) := by
  delta State.grantClaim
  extract_lets send
  split
  · split
    · exact Moves.then (t := { s with pendingRound := none }) (.quiet rfl)
        ((State.placeRound_moves _ _).then (.quiet rfl))
    · exact .refl
  · split
    · exact (s.mapRecord_moves _ send fun _ => rfl).then (.quiet rfl)
    · exact .refl

theorem State.withdrawPart_moves (s : State) (c : Chain) (x : PartState) : Moves s (s.withdrawPart c x) := by
  delta State.withdrawPart
  extract_lets mark
  split
  · split
    · extract_lets r'
      split
      · exact Moves.then (t := { s with pendingRound := none }) (.quiet rfl) (State.placeRound_moves _ _)
      · exact .quiet rfl
    · exact .refl
  · split
    · exact s.mapRecord_moves _ mark fun _ => rfl
    · exact .refl

theorem State.endPart_moves (s : State) (c : Chain) (n : RoundNumber) (e : EndCause) : Moves s (s.endPart c n e) :=
  Moves.then (t := s.mapRecord n fun r => r.mapPart c fun p => { p with endCause := some e })
    (s.mapRecord_moves n _ fun _ => rfl) (State.mapPort_moves _ _ _)

theorem State.setReading_moves (s : State) (c : Chain) (n : RoundNumber) (x : Reading) : Moves s (s.setReading c n x) :=
  s.mapRecord_moves n _ fun _ => rfl

theorem State.endIfFull_moves (s : State) (c : Chain) (n : RoundNumber) : Moves s (s.endIfFull c n) := by
  unfold State.endIfFull
  split
  · split
    · exact s.endPart_moves c n _
    · exact .refl
  · exact .refl

theorem State.fillReading_moves (s : State) (c : Chain) (n : RoundNumber) (x : Reading) (set : SampleSet) :
    Moves s (s.fillReading c n x set) := by
  unfold State.fillReading
  split
  · split
    · exact (s.setReading_moves c n _).then (State.takeNodeFlags_moves _ _ _ _ _ _)
    · exact s.setReading_moves c n _
  · exact s.setReading_moves c n _

/-! ### The arbiter -/

theorem State.grantOrder_moves (s : State) (c : Chain) (o : Order) : Moves s (s.grantOrder c o) := by
  delta State.grantOrder
  extract_lets ended
  split <;> exact .quiet rfl

theorem State.grantInternal_moves (s : State) (c : Chain) (o : Order) : Moves s (s.grantInternal c o) :=
  (s.mapPort_moves c _).then (State.grantOrder_moves _ c o)

theorem State.grantForward_moves (s : State) (c : Chain) (o : Order) : Moves s (s.grantForward c o) :=
  (s.mapPort_moves c _).then (State.grantOrder_moves _ c o)

theorem State.decide_moves (s : State) (c : Chain) : Moves s (s.decide c) := by
  unfold State.decide
  dsimp only
  split
  · exact s.grantClaim_moves c
  · split
    · split
      · exact s.grantForward_moves c _
      · exact s.grantInternal_moves c _
    · exact s.grantInternal_moves c _
    · exact s.grantForward_moves c _
    · exact .refl

theorem State.arbitrate_moves (s : State) (c : Chain) : Moves s (s.arbitrate c) := by
  unfold State.arbitrate
  split
  · exact s.decide_moves c
  · exact .refl

theorem State.arbitrateBoth_moves (s : State) : Moves s s.arbitrateBoth :=
  (s.arbitrate_moves .A).then (State.arbitrate_moves _ .B)

/-! ### The Scheduler and the apply -/

theorem State.beginStep_moves (s : State) : Moves s s.beginStep := by
  unfold State.beginStep
  split
  · split
    · exact s.createRound_moves _
    · exact .refl
  · exact .refl

theorem State.startCursor_moves (s : State) : Moves s s.startCursor :=
  Moves.then (t := { s with cursor := ⟨.running, 0, s.time, 0#32⟩ }) (.quiet rfl) (State.beginStep_moves _)

theorem State.stopCursor_moves (s : State) : Moves s s.stopCursor := by
  unfold State.stopCursor
  split <;> first | exact .refl | exact .quiet rfl

theorem State.rebuildNodes_moves (s : State) (c : Chain) : Moves s (s.rebuildNodes c) := by
  delta State.rebuildNodes
  split
  · extract_lets old s1
    have h1 : Moves s s1 := .quiet rfl
    split
    · exact h1.then (State.requestSurvey_moves _ _)
    · exact h1
  · exact .refl

theorem State.refitWindow_moves (s : State) : Moves s s.refitWindow := by
  delta State.refitWindow
  split
  · extract_lets w s1
    have h1 : Moves s s1 := .one (.window _ rfl)
    split
    · exact h1.then (State.superviseFault_moves _ _)
    · exact h1
  · exact .refl

theorem State.pendingSurveys_moves (s : State) : Moves s s.pendingSurveys :=
  (s.pendingSurvey_moves .A).then (State.pendingSurvey_moves _ .B)

theorem State.leaveUnconfigured_moves (s : State) : Moves s s.leaveUnconfigured := by
  unfold State.leaveUnconfigured
  split
  · exact Moves.then (t := { s with sleep := { s.sleep with op := .run } }) (.quiet rfl)
      ((State.startCursor_moves _).then (State.pendingSurveys_moves _))
  · exact .refl

theorem State.commitDone_moves (s : State) (e : Epoch) (n : BitVec 32) : Moves s (s.commitDone e n) :=
  (Moves.one (.closed { s.update.emptied with lastOutcome := some (.commitDone s.workingEpoch, s.time) } rfl rfl
    rfl)).then (State.notify_moves _ _)

theorem State.apply_moves (s : State) : Moves s s.apply := by
  delta State.apply
  extract_lets previous cycles s1 s2
  have h1 : Moves s s1 := .quiet rfl
  have h2 : Moves s1 s2 := (s1.rebuildNodes_moves .A).then (State.rebuildNodes_moves _ .B)
  exact (((h1.then h2).then s2.refitWindow_moves).then (State.leaveUnconfigured_moves _)).then
    (State.commitDone_moves _ _ _)

theorem State.takeStepZero_moves (s : State) (b : Instant) (n : BitVec 32) : Moves s (s.takeStepZero b n) :=
  Moves.then (t := { s with cursor := ⟨.running, 0, b, n⟩ }) (.quiet rfl) (State.beginStep_moves _)

theorem State.cycleBoundary_moves (s : State) (b : Instant) : Moves s (s.cycleBoundary b) := by
  unfold State.cycleBoundary
  split
  · exact s.apply_moves.then (State.takeStepZero_moves _ _ _)
  · exact s.takeStepZero_moves _ _

theorem State.advance_moves (s : State) : Moves s s.advance := by
  delta State.advance
  extract_lets ends
  split
  · exact Moves.then (t := { s with cursor := { s.cursor with step := s.cursor.step + 1, start := ends } }) (.quiet rfl)
      (State.beginStep_moves _)
  · exact s.cycleBoundary_moves _

end Sys2Proof.Machine
end

