-- ==== Sys2Proof/Laws/SleepMoves.lean ====
section
/-! SUPPORT. The moves of the Host Link, the Sleep Controller and the Chain Ports. -/

namespace Sys2Proof.Machine

/-! ### The link -/

theorem State.setLink_moves (s : State) (l : HostLink) (hq : l.queue.Sublist s.link.queue)
    (ho : l.owed ≤ s.link.owed) : Moves s { s with link := l } := .one (.link l hq ho)

theorem HostLink.depart_queue (l : HostLink) (q : Queued) : (l.depart q).queue.Sublist l.queue :=
  List.drop_sublist 1 l.queue

theorem HostLink.depart_owed (l : HostLink) (q : Queued) : (l.depart q).owed ≤ l.owed := by
  unfold HostLink.depart
  dsimp only
  split <;> omega

theorem State.shutHostLink_moves (s : State) : Moves s s.shutHostLink :=
  Moves.then (t := { s with link := s.link.shutLink })
    (s.setLink_moves _ (List.nil_sublist _) (Nat.zero_le _)) (.quiet rfl)

theorem State.openLink_moves (s : State) : Moves s { s with link := s.link.openLink } :=
  s.setLink_moves _ (List.nil_sublist _) (Nat.zero_le _)

theorem State.markReported_moves (s : State) (f : Outbound) : Moves s (s.markReported f) := by
  unfold State.markReported
  split
  · rename_i r
    exact .one (.records (fun x => if x.number == r.number && x.planned == r.planned then { x with reported := true } else x)
      fun x => by split <;> rfl)
  all_goals exact .refl

theorem State.settleExchange_moves (s : State) (e : Exchange) (n : Nat) : Moves s (s.settleExchange e n) := by
  unfold State.settleExchange
  split
  · split
    · exact (s.setLink_moves _ (HostLink.depart_queue _ _) (HostLink.depart_owed _ _)).then
        (State.markReported_moves _ _)
    · exact .refl
  · exact .refl

theorem State.takeInbound_moves (s : State) (f : State → State) (h : ∀ s, Moves s (f s)) : Moves s (s.takeInbound f) := by
  unfold State.takeInbound
  split
  · exact .refl
  · split
    · rename_i g
      exact (Moves.one (.accept g)).then (h _)
    · exact s.setLink_moves s.link.discard (List.Sublist.refl _) (Nat.le_refl _)

theorem State.requestStatus_moves (s : State) (t c : Byte) : Moves s (s.requestStatus t c) := by
  delta State.requestStatus
  split
  · extract_lets l s1
    refine Moves.then (t := s1) ?_ (State.reply_moves _ _ _ _)
    unfold s1
    split
    · exact s.setLink_moves { s.link with unsolicitedDiscard := false } (List.Sublist.refl _) (Nat.le_refl _)
    · exact .refl
  · exact s.reply_moves _ _ _

theorem State.requestBridgeReset_moves (s : State) (t : Byte) : Moves s (s.requestBridgeReset t) := by
  delta State.requestBridgeReset
  split
  · extract_lets s1 l
    have h1 : Moves s s1 := .one (.offer (.reply t .done .none) true)
    exact h1.then (State.setLink_moves _ _ (List.Sublist.refl _) (Nat.le_refl _))
  · exact s.reply_moves _ _ _

/-! ### The Sleep Controller -/

theorem State.setSleep_moves (s : State) (f : SleepController → SleepController) : Moves s (s.setSleep f) := .quiet rfl
theorem State.setSleepWork_moves (s : State) (f : SleepWork → SleepWork) : Moves s (s.setSleepWork f) := .quiet rfl

theorem State.broadcast_moves (s : State) (o : Order) (cs : List Chain) : Moves s (s.broadcast o cs) := by
  unfold State.broadcast
  refine Moves.foldl _ (fun s c => ?_) _ _
  exact .quiet rfl

theorem State.fallAsleep_moves (s : State) : Moves s s.fallAsleep := by
  delta State.fallAsleep
  extract_lets s1 s2
  have h2 : Moves s s2 := s.stopOscillator_moves.then (.quiet rfl)
  split
  · exact h2
  · exact h2.then (.quiet rfl)

theorem State.secondWoke_moves (s : State) : Moves s s.secondWoke := by
  delta State.secondWoke
  split
  · exact .refl
  · extract_lets causes
    exact (s.setSleep_moves _).then (State.notify_moves _ _)

theorem State.becomeRun_moves (s : State) : Moves s s.becomeRun := by
  delta State.becomeRun
  extract_lets s1 s2
  exact Moves.then (t := s2) (.quiet rfl) ((State.pendingSurveys_moves _).then (State.secondWoke_moves _))

theorem State.openForWake_moves (s : State) : Moves s s.openForWake := by
  delta State.openForWake
  extract_lets r s1 s2 l
  have h2 : Moves s s2 := (s.openLink_moves.then (State.setSleep_moves _ _)).then (State.notify_moves _ _)
  exact h2.then (s2.setLink_moves _ (List.Sublist.refl _) (Nat.le_refl _))

theorem State.wakeRoundClosed_moves (s : State) : Moves s s.wakeRoundClosed :=
  s.startCursor_moves.then (State.becomeRun_moves _)

theorem State.linkOpen_moves (s : State) : Moves s s.linkOpen := by
  delta State.linkOpen
  extract_lets s1 cur s2
  have h1 : Moves s s1 := s.openForWake_moves.then (State.setSleepWork_moves _ _)
  have h0 : Moves s s1.startCursor.becomeRun := (h1.then (State.startCursor_moves _)).then (State.becomeRun_moves _)
  split
  · split
    · extract_lets r s3
      have h3 : Moves s s3 := (h1.then (Moves.quiet (t := s2) rfl)).then (State.createRound_moves _ _)
      split
      · exact h3.then (State.wakeRoundClosed_moves _)
      · exact h3
    · exact h0
  · exact h0

theorem State.enterNodeWake_moves (s : State) : Moves s s.enterNodeWake := .quiet rfl

theorem State.wakeRousing_moves (s : State) : Moves s s.wakeRousing := by
  delta State.wakeRousing
  extract_lets cs s1
  have h1 : Moves s s1 := .quiet rfl
  split
  · exact h1.then (State.linkOpen_moves _)
  · exact h1.then (State.broadcast_moves _ _ _)

theorem State.wakeRunning_moves (s : State) : Moves s s.wakeRunning :=
  ((s.setSleep_moves _).then (State.setSleepWork_moves _ _)).then (State.wakeRousing_moves _)

theorem State.beginPatrol_moves (s : State) : Moves s s.beginPatrol := .quiet rfl

theorem State.endPatrol_moves (s : State) : Moves s s.endPatrol := by
  unfold State.endPatrol
  split
  · exact s.stopOscillator_moves.then (State.setSleep_moves _ _)
  · exact s.wakeRunning_moves

theorem State.restPatrol_moves (s : State) : Moves s s.restPatrol := by
  delta State.restPatrol
  extract_lets cs s1
  have h1 : Moves s s1 := .quiet rfl
  split
  · exact h1.then (State.endPatrol_moves _)
  · exact h1.then (State.broadcast_moves _ _ _)

theorem State.judgePatrol_moves (s : State) (r : RoundRecord) : Moves s (s.judgePatrol r) := by
  delta State.judgePatrol
  extract_lets j s1 s2
  have h2 : Moves s s2 := by
    unfold s2
    split
    · exact Moves.then (t := s1) (.quiet rfl) (State.latch_moves _ _)
    · exact .quiet rfl
  split
  · exact h2.then (State.restPatrol_moves _)
  · exact h2.then (State.wakeRunning_moves _)

theorem State.patrolRound_moves (s : State) : Moves s s.patrolRound := by
  delta State.patrolRound
  extract_lets s1
  have h1 : Moves s s1 := .quiet rfl
  split
  · extract_lets r s2
    have h2 : Moves s s2 := h1.then (State.createRound_moves _ _)
    split
    · exact h2.then (State.judgePatrol_moves _ _)
    · exact h2
  · exact h1

theorem State.patrolRousing_moves (s : State) : Moves s s.patrolRousing := by
  delta State.patrolRousing
  extract_lets cs s1
  have h1 : Moves s s1 := .quiet rfl
  split
  · exact h1.then (State.patrolRound_moves _)
  · exact h1.then (State.broadcast_moves _ _ _)

theorem State.oscillatorReady_moves (s : State) : Moves s s.oscillatorReady := by
  delta State.oscillatorReady
  extract_lets s1
  have h1 : Moves s s1 := s.startOscillator_moves.then (State.setSleepWork_moves _ _)
  split
  · exact h1.then (State.patrolRousing_moves _)
  · exact h1.then (State.wakeRousing_moves _)
  all_goals exact h1

theorem State.nodesReady_moves (s : State) : Moves s s.nodesReady := by
  unfold State.nodesReady
  split
  · exact s.patrolRound_moves
  · exact s.linkOpen_moves
  all_goals exact .refl

theorem State.broadcastsDone_moves (s : State) : Moves s s.broadcastsDone := by
  unfold State.broadcastsDone
  split
  · exact s.enterNodeWake_moves
  · exact s.enterNodeWake_moves
  · exact s.endPatrol_moves
  · exact .refl

theorem State.broadcastEnded_moves (s : State) (c : Chain) (b : Bool) : Moves s (s.broadcastEnded c b) := by
  delta State.broadcastEnded
  split
  · extract_lets s1
    have h1 : Moves s s1 := .quiet rfl
    split
    · exact h1.then (State.broadcastsDone_moves _)
    · exact h1
  · exact .refl

theorem State.afterClose_moves (s : State) (r : RoundRecord) : Moves s (s.afterClose r) := by
  unfold State.afterClose
  split
  · exact s.judgePatrol_moves r
  · exact s.wakeRoundClosed_moves
  · exact .refl

theorem State.closeIfSettled_moves (s : State) (n : RoundNumber) : Moves s (s.closeIfSettled n) := by
  unfold State.closeIfSettled
  split
  · split
    · exact (s.closeStages_moves n).then (State.afterClose_moves _ _)
    · exact .refl
  · exact .refl

theorem State.withdrawClaim_moves (s : State) (c : Chain) (x : PartState) : Moves s (s.withdrawClaim c x) := by
  unfold State.withdrawClaim
  split
  · exact (s.withdrawPart_moves c x).then (State.closeIfSettled_moves _ _)
  · exact .refl

theorem State.settleCursor_moves (s : State) : Moves s s.settleCursor := by
  delta State.settleCursor
  extract_lets cur s1
  have h1 : Moves s s1 := by
    unfold s1
    split
    · exact .quiet rfl
    · exact .refl
  split
  · exact ((h1.then (State.setSleep_moves _ _)).then (State.broadcast_moves _ _ _)).then (State.arbitrateBoth_moves _)
  · exact h1

theorem State.finish_moves (s : State) : Moves s s.finish := by
  delta State.finish
  extract_lets s1
  have h1 : Moves s s1 := s.arbitrateBoth_moves.then (State.settleCursor_moves _)
  split
  · exact h1.then (State.fallAsleep_moves _)
  · exact h1

theorem State.startTrackers_moves (s : State) : Moves s s.startTrackers := by
  delta State.startTrackers
  split
  · extract_lets s1
    split <;> exact .quiet rfl
  · exact .refl

theorem State.enterSleep_moves (s : State) : Moves s s.enterSleep := by
  delta State.enterSleep
  extract_lets s1 pa pb l s2 s3
  have h1 : Moves s s1 := s.stopCursor_moves
  have ha : Moves s1 { s1 with stream := s1.stream.absented } := .one (.stream _ rfl)
  have hb : Moves { s1 with stream := s1.stream.absented }
      { s1 with stream := s1.stream.absented, link := { s1.link with state := .closing } } :=
    State.setLink_moves _ { s1.link with state := .closing } (List.Sublist.refl _) (Nat.le_refl _)
  have h2 : Moves s1 s2 := (ha.then hb).then (.quiet rfl)
  have h3 : Moves s2 s3 := .quiet rfl
  exact (((h1.then h2).then h3).then (State.setSleepWork_moves _ _)).then (State.startTrackers_moves _)

theorem State.requestSleep_moves (s : State) (t : Byte) : Moves s (s.requestSleep t) := by
  unfold State.requestSleep
  split
  · exact s.refuse_moves _ _ _
  · exact (Moves.one (.offer (.reply t .done .none) true)).then (State.enterSleep_moves _)

theorem State.judgeWake_moves (s : State) (i : WakeInput) (b : Bool) : Moves s (s.judgeWake i b) := by
  unfold State.judgeWake
  split
  · split
    · exact s.latch_moves _
    · exact .refl
  · exact .refl

theorem State.wakeLevel_moves (s : State) (i : WakeInput) (b : Bool) : Moves s (s.wakeLevel i b) := by
  unfold State.wakeLevel
  split
  · split
    · exact .refl
    · exact .quiet rfl
  · exact .refl

theorem State.wakeFiltered_moves (s : State) (i : WakeInput) : Moves s (s.wakeFiltered i) := by
  unfold State.wakeFiltered
  dsimp only
  split
  · exact Moves.then (t := s.setTracker i _) (.quiet rfl) (State.judgeWake_moves _ _ _)
  · exact .refl

theorem State.sampleInput_moves (s : State) (i : WakeInput) : Moves s (s.sampleInput i) := by
  unfold State.sampleInput
  dsimp only
  split
  · split
    · split
      · exact Moves.then (t := s.setTracker i _) (.quiet rfl) (State.judgeWake_moves _ _ _)
      · exact .quiet rfl
    · exact .refl
  · exact .refl

theorem State.samplePulse_moves (s : State) : Moves s s.samplePulse :=
  (((s.setSleepWork_moves _).then (State.sampleInput_moves _ .wake1)).then (State.sampleInput_moves _ .wake2)).then
    (State.sampleInput_moves _ .wake3)

theorem State.takeAlert_moves (s : State) (c : Chain) (a x : Byte) : Moves s (s.takeAlert c a x) := by
  delta State.takeAlert
  extract_lets request s1
  split
  · have h1 : Moves s s1 := s.notify_moves _
    split
    · exact h1
    · exact h1.then (.quiet rfl)
  · split
    · split
      · exact s.latch_moves _
      · exact .refl
    · split
      · exact .refl
      · exact .quiet rfl

/-! ### The Chain Ports -/

theorem State.chainStops_moves (s : State) (c : Chain) (m : StopMode) : Moves s (s.chainStops c m) :=
  ((s.mapPort_moves c _).then (State.abortSurvey_moves _ c)).then (State.notify_moves _ _)

theorem State.drained_moves (s : State) (c : Chain) : Moves s (s.drained c) := by
  unfold State.drained
  split
  · exact s.chainStops_moves c _
  · exact .refl

theorem State.freeChain_moves (s : State) (c : Chain) : Moves s (s.freeChain c) := .quiet rfl

theorem State.partEnds_moves (s : State) (c : Chain) (n : RoundNumber) (e : EndCause) : Moves s (s.partEnds c n e) :=
  (s.endPart_moves c n e).then (State.closeIfSettled_moves _ n)

theorem State.afterReading_moves (s : State) (c : Chain) (n : RoundNumber) : Moves s (s.afterReading c n) :=
  ((s.endIfFull_moves c n).then (State.closeIfSettled_moves _ n)).then (State.drained_moves _ c)

theorem State.takeSampleSet_moves (s : State) (c : Chain) (a : Byte) (p : List Byte) :
    Moves s (s.takeSampleSet c a p) := by
  delta State.takeSampleSet
  split
  · exact .refl
  · extract_lets set
    split
    · exact .refl
    · split
      · exact (s.fillReading_moves c _ _ _).then (State.afterReading_moves _ _ _)
      · exact .refl

theorem State.takeFailedSet_moves (s : State) (c : Chain) (a : Byte) : Moves s (s.takeFailedSet c a) := by
  unfold State.takeFailedSet
  split
  · exact .refl
  · split
    · exact (s.setReading_moves c _ _).then (State.afterReading_moves _ _ _)
    · exact .refl

theorem State.endCollection_moves (s : State) (c : Chain) (e : EndCause) : Moves s (s.endCollection c e) := by
  unfold State.endCollection
  split
  · exact (s.partEnds_moves c _ e).then (State.drained_moves _ c)
  · exact .refl

theorem State.orderAnswered_moves (s : State) (c : Chain) (o : Order) (d : List Byte) (t : Int) :
    Moves s (s.orderAnswered c o d t) := by
  unfold State.orderAnswered
  split
  · exact s.offer_moves _
  · exact s.echoAnswered_moves c _ _
  · exact Moves.then (t := s.mapNode c o.position _) (.quiet rfl) (State.surveyNext_moves _ _ _ _)
  · exact .refl
  · exact .refl

theorem State.orderTimedOut_moves (s : State) (c : Chain) (o : Order) (t : BitVec 4) :
    Moves s (s.orderTimedOut c o t) := by
  unfold State.orderTimedOut
  split
  · exact (s.mapPort_moves c _).then (State.reply_moves _ _ _ _)
  · exact Moves.then (t := s.mapNode c o.position _) (.quiet rfl) (State.surveyNext_moves _ _ _ _)
  · exact Moves.then (t := s.mapNode c o.position _) (.quiet rfl) (State.surveyNext_moves _ _ _ _)
  · exact .refl
  · exact .refl

theorem State.lateAnswer_moves (s : State) (c : Chain) (t : BitVec 4) (a : Byte) (d : List Byte) :
    Moves s (s.lateAnswer c t a d) := by
  unfold State.lateAnswer
  split
  · exact (s.mapPort_moves c _).then (State.offer_moves _ _)
  · exact .refl

theorem State.takeAnswer_moves (s : State) (c : Chain) (t : BitVec 4) (a : Byte) (d : List Byte) (n : Stamp) :
    Moves s (s.takeAnswer c t a d n) := by
  unfold State.takeAnswer
  split
  · split
    · exact ((s.freeChain_moves c).then (State.orderAnswered_moves _ _ _ _ _)).then (State.drained_moves _ c)
    · exact s.lateAnswer_moves c t a d
  all_goals exact s.lateAnswer_moves c t a d

theorem State.takeTimeout_moves (s : State) (c : Chain) : Moves s (s.takeTimeout c) := by
  unfold State.takeTimeout
  split
  · exact ((s.freeChain_moves c).then (State.orderTimedOut_moves _ _ _ _)).then (State.drained_moves _ c)
  · exact .refl

theorem State.broadcastSettles_moves (s : State) (c : Chain) (o : Order) : Moves s (s.broadcastSettles c o) := by
  unfold State.broadcastSettles
  split
  · exact s.reply_moves _ _ _
  · exact (s.mapPort_moves c _).then (State.broadcastEnded_moves _ c _)
  · exact (s.mapPort_moves c _).then (State.broadcastEnded_moves _ c _)
  · exact .refl
  · exact .refl

theorem State.takeSettle_moves (s : State) (c : Chain) : Moves s (s.takeSettle c) := by
  unfold State.takeSettle
  split
  · exact ((s.freeChain_moves c).then (State.broadcastSettles_moves _ _ _)).then (State.drained_moves _ c)
  · exact .refl

theorem State.requestPass_moves (s : State) (c p o t : Byte) (d : List Byte) : Moves s (s.requestPass c p o t d) := by
  unfold State.requestPass
  split
  · exact s.mapPort_moves _ _
  · exact s.reply_moves _ _ _
  · exact s.reply_moves _ _ _

theorem State.emptyForward_moves (s : State) (c : Chain) : Moves s (s.emptyForward c) :=
  (s.mapPort_moves c _).then (Moves.foldl _ (fun s o => by
    split
    · exact s.reply_moves _ _ _
    · exact .refl) _ _)

theorem State.emptyInternal_moves (s : State) (c : Chain) : Moves s (s.emptyInternal c) :=
  (s.mapPort_moves c _).then (Moves.foldl _ (fun s o => by
    split
    · exact s.broadcastEnded_moves c _
    · exact s.broadcastEnded_moves c _
    · exact .refl) _ _)

theorem State.drain_moves (s : State) (t : Byte) (c : Chain) : Moves s (s.drain t c) :=
  (((((s.mapPort_moves c _).then (State.reply_moves _ _ _ _)).then (State.emptyForward_moves _ c)).then
    (State.emptyInternal_moves _ c)).then (State.withdrawClaim_moves _ c _)).then (State.drained_moves _ c)

theorem State.cutShort_moves (s : State) (c : Chain) : Moves s (s.cutShort c) := by
  unfold State.cutShort
  split
  · split
    · exact s.partEnds_moves c _ _
    · exact s.freeChain_moves c
  · split
    · exact (s.freeChain_moves c).then (State.reply_moves _ _ _ _)
    · exact s.freeChain_moves c
  · split
    · exact (s.freeChain_moves c).then (State.reply_moves _ _ _ _)
    · exact (s.freeChain_moves c).then (State.broadcastEnded_moves _ c _)
    · exact (s.freeChain_moves c).then (State.broadcastEnded_moves _ c _)
    · exact s.freeChain_moves c
  · exact .refl

theorem State.abort_moves (s : State) (t : Byte) (c : Chain) : Moves s (s.abort t c) :=
  (((((((s.mapPort_moves c _).then (State.cutShort_moves _ c)).then (State.withdrawClaim_moves _ c _)).then
    (State.emptyForward_moves _ c)).then (State.emptyInternal_moves _ c)).then (State.abortSurvey_moves _ c)).then
    (State.notify_moves _ _)).then (State.reply_moves _ _ _ _)

theorem State.requestDrain_moves (s : State) (t c : Byte) : Moves s (s.requestDrain t c) := by
  unfold State.requestDrain
  split
  · exact s.reply_moves _ _ _
  · split
    · exact s.drain_moves t _
    all_goals exact s.reply_moves _ _ _

theorem State.requestAbort_moves (s : State) (t c : Byte) : Moves s (s.requestAbort t c) := by
  unfold State.requestAbort
  split
  · exact s.reply_moves _ _ _
  · split
    · exact s.abort_moves t _
    · exact s.abort_moves t _
    · exact s.reply_moves _ _ _

theorem State.requestStart_moves (s : State) (t c : Byte) : Moves s (s.requestStart t c) := by
  unfold State.requestStart
  split
  · exact s.reply_moves _ _ _
  · split
    · exact ((s.mapPort_moves _ _).then (State.reply_moves _ _ _ _)).then (State.pendingSurvey_moves _ _)
    all_goals exact s.reply_moves _ _ _

theorem State.requestSurveyNow_moves (s : State) (t c : Byte) : Moves s (s.requestSurveyNow t c) := by
  unfold State.requestSurveyNow
  split
  · exact s.reply_moves _ _ _
  · split
    · exact s.reply_moves _ _ _
    · split
      · exact s.reply_moves _ _ _
      · split
        · exact s.reply_moves _ _ _
        · exact (s.reply_moves _ _ _).then (State.beginSurvey_moves _ _)

end Sys2Proof.Machine
end

