-- ==== Sys2Proof/Laws/StepMoves.lean ====
section
/-! SUPPORT. The moves of the Update Engine and of the requests of the captures, the Sequencer and AUX. -/

namespace Sys2Proof.Machine

/-! ### The Update Engine -/

theorem State.setStore_moves (s : State) (x : ImageStore) (h : x.floor = s.store.floor) :
    Moves s { s with store := x } := .one (.store x h)

theorem ImageStore.setSlot_floor (x : ImageStore) (k : Slot) (c : SlotContents) : (x.setSlot k c).floor = x.floor := by
  cases k <;> rfl

theorem State.setSlot_moves (s : State) (k : Slot) (f : SlotContents → SlotContents) : Moves s (s.setSlot k f) :=
  s.setStore_moves _ (ImageStore.setSlot_floor _ _ _)

theorem State.progress_moves (s : State) (f : UpdateEngine → UpdateEngine) (ho : s.update.state.working = true)
    (hs : (f s.update).state.working = true) (he : (f s.update).stagedEpoch = s.update.stagedEpoch)
    (hl : (f s.update).latch = s.update.latch) : Moves s (s.setUpdate f) := .one (.progress _ ho hs he hl)

theorem State.closed_moves (s : State) (f : UpdateEngine → UpdateEngine) (hs : (f s.update).state = .closed)
    (hg : (f s.update).staging = none) (he : (f s.update).stagedEpoch = none) : Moves s (s.setUpdate f) :=
  .one (.closed _ hs hg he)

theorem State.answerCommit_moves (s : State) (x : ReplyStatus) (r : ResultData) : Moves s (s.answerCommit x r) := by
  unfold State.answerCommit
  split
  · exact Moves.then (t := { s with commit := { s.commit with tag := none } }) (.quiet rfl) (State.reply_moves _ _ _ _)
  · exact .refl

theorem State.answerCommit_update (s : State) (x : ReplyStatus) (r : ResultData) :
    (s.answerCommit x r).update = s.update := by
  unfold State.answerCommit
  split <;> rfl

theorem State.requestUpdateOpen_moves (s : State) (t : Byte) (e : Epoch) : Moves s (s.requestUpdateOpen t e) := by
  delta State.requestUpdateOpen
  split
  · exact s.reply_moves _ _ _
  · rename_i h
    extract_lets s1
    refine Moves.then (t := s1) (.one (.windowOpened _ e ?_ ?_ rfl rfl ?_)) (State.reply_moves _ _ _ _)
    all_goals
      unfold State.openRefusal at h
      by_cases hl : s.update.latch = true
      · simp [hl] at h
      · first
        | simpa using hl
        | (simp only [hl] at h
           repeat (split at h; · exact absurd h (by simp))
           rename_i hf
           exact BitVec.not_le.mp fun g => hf (.inr g))

theorem State.requestStage_moves (s : State) (t b i : Byte) (r : Record) : Moves s (s.requestStage t b i r) := by
  delta State.requestStage
  split
  · exact s.reply_moves _ _ _
  · split
    iterate 3 exact s.reply_moves _ _ _
    iterate 2 exact s.reply_moves _ _ _
    rename_i hs
    extract_lets s1
    have h1 : Moves s s1 := s.progress_moves _ (by rw [hs]; rfl) (by rw [hs]; rfl) rfl rfl
    split
    · exact h1.then (State.refuse_moves _ _ _ _)
    · split
      · exact h1.then (State.refuse_moves _ _ _ _)
      · refine (h1.then (State.progress_moves s1 _ ?_ ?_ rfl rfl)).then (State.reply_moves _ _ _ _)
        · show s.update.state.working = true
          rw [hs]; rfl
        · show s.update.state.working = true
          rw [hs]; rfl

theorem State.requestReadRecord_moves (s : State) (t b i x : Byte) : Moves s (s.requestReadRecord t b i x) := by
  unfold State.requestReadRecord
  split
  · exact s.reply_moves _ _ _
  · split
    · exact s.reply_moves _ _ _
    · split
      · exact s.reply_moves _ _ _
      · rename_i hs
        have hw : s.update.state.working = true := by
          have : s.update.state = .opened := by simpa using hs
          rw [this]; rfl
        exact (s.progress_moves _ hw hw rfl rfl).then (State.reply_moves _ _ _ _)
    · split
      · exact s.reply_moves _ _ _
      · exact s.reply_moves _ _ _

theorem State.closeWindow_moves (s : State) : Moves s s.closeWindow := by
  delta State.closeWindow
  extract_lets epoch
  exact (s.closed_moves _ rfl rfl rfl).then (State.notify_moves _ _)

theorem State.requestCommit_moves (s : State) (t : Byte) (w : BitVec 32) : Moves s (s.requestCommit t w) := by
  unfold State.requestCommit
  split
  · exact s.reply_moves _ _ _
  · split
    iterate 3 exact s.reply_moves _ _ _
    iterate 2 exact s.reply_moves _ _ _
    rename_i hs
    exact (s.progress_moves (fun u => { u with state := .validating, idleExpiry := none }) (by rw [hs]; rfl) rfl rfl
      rfl).then (.quiet rfl)

theorem State.startWriting_moves (s : State) (w : BitVec 32) (h : s.update.state.working = true) :
    Moves s (s.startWriting w) := by
  delta State.startWriting
  extract_lets k s1
  have h1 : Moves s s1 := s.setSlot_moves _ _
  exact (h1.then (State.progress_moves s1 (fun u => { u with state := .writing, target := some k }) h rfl rfl rfl)).then
    (.quiet rfl)

theorem State.endValidation_moves (s : State) (h : s.update.state.working = true) : Moves s s.endValidation := by
  delta State.endValidation
  split
  · rename_i reason _
    extract_lets s1
    have h1 : Moves s s1 := s.answerCommit_moves _ _
    have g : s1.update = s.update := s.answerCommit_update _ _
    exact (h1.then (State.progress_moves s1 (fun u => { u with state := .opened, idleExpiry := some s1.idleEnd })
      (by rw [g]; exact h) rfl rfl rfl)).then (.quiet rfl)
  · exact (s.answerCommit_moves _ _).then (State.startWriting_moves _ _ (by rw [State.answerCommit_update]; exact h))

theorem State.invalidateTarget_moves (s : State) : Moves s s.invalidateTarget := by
  unfold State.invalidateTarget
  split
  · exact s.setSlot_moves _ _
  · exact .refl

theorem State.failCommit_moves (s : State) (r : CommitFailure) : Moves s (s.failCommit r) := by
  delta State.failCommit
  extract_lets epoch s1
  have h1 : Moves s s1 := s.invalidateTarget_moves
  exact ((h1.then (State.closed_moves s1 (fun u => { u.emptied with lastOutcome := some (.commitFailed r, s1.time) })
    rfl rfl rfl)).then (Moves.quiet (t := { s1.setUpdate _ with commit := .none }) rfl)).then (State.notify_moves _ _)

theorem State.endWriting_moves (s : State) (i : Image) (h : s.update.state.working = true) :
    Moves s (s.endWriting i) := by
  delta State.endWriting
  extract_lets s1
  have h1 : Moves s s1 ∧ s1.update = s.update := by
    unfold s1
    split
    · exact ⟨s.setSlot_moves _ _, rfl⟩
    · exact ⟨.refl, rfl⟩
  exact (h1.1.then (State.progress_moves s1 (fun u => { u with state := .verifying }) (by rw [h1.2]; exact h) rfl rfl
    rfl)).then (.quiet rfl)

theorem State.swap_moves (s : State) (h : s.update.state = .verifying) : Moves s s.swap := by
  delta State.swap
  extract_lets epoch s1 x s2 s3
  have h1 : Moves s s1 ∧ s1.update = s.update := by
    unfold s1
    split
    · exact ⟨s.setSlot_moves _ _, rfl⟩
    · exact ⟨.refl, rfl⟩
  have h3 : Moves s1 s3 :=
    (Moves.one (.swapped (by rw [h1.2]; exact h) { s1.store with floor := epoch }
      { s1.update.emptied with state := .applyPending }
      (by show epoch = s1.stagedEpoch; unfold State.stagedEpoch; rw [h1.2]; rfl) rfl rfl rfl)).then (.quiet rfl)
  split
  · exact (h1.1.then h3).then s3.apply_moves
  · exact h1.1.then h3

theorem State.endReadBack_moves (s : State) (h : s.update.state = .verifying) : Moves s s.endReadBack := by
  unfold State.endReadBack
  split
  · exact s.failCommit_moves _
  · exact s.swap_moves h

theorem State.takeStoreFault_moves (s : State) : Moves s s.takeStoreFault := by
  unfold State.takeStoreFault
  split
  · exact s.failCommit_moves _
  · exact .quiet rfl
  all_goals exact .refl

theorem State.requestUpdateAbort_moves (s : State) (t : Byte) : Moves s (s.requestUpdateAbort t) := by
  unfold State.requestUpdateAbort
  have abandon : Moves s (s.anyOrder [fun s => s.reply t .done .none, fun s => s.failCommit .aborted]) :=
    Moves.anyOrder _ (fun f hf s => by
      simp only [List.mem_cons, List.not_mem_nil, or_false] at hf
      rcases hf with rfl | rfl
      · exact s.reply_moves _ _ _
      · exact s.failCommit_moves _) s
  split
  · exact s.reply_moves _ _ _
  · exact s.reply_moves _ _ _
  · exact (s.closed_moves _ rfl rfl rfl).then (State.reply_moves _ _ _ _)
  · exact s.reply_moves _ _ _
  · exact abandon
  · exact abandon

theorem State.tamperUpdate_moves (s : State) : Moves s s.tamperUpdate := by
  unfold State.tamperUpdate
  split
  · exact .refl
  · exact s.closed_moves _ rfl rfl rfl
  · exact ((s.answerCommit_moves _ _).then (State.closed_moves _ UpdateEngine.emptied rfl rfl rfl)).then (.quiet rfl)
  · exact s.failCommit_moves _
  · exact s.failCommit_moves _
  · exact .refl

theorem State.tamperUpdate_state (s : State) : s.tamperUpdate.update.state.working = false := by
  unfold State.tamperUpdate
  split <;> first | rfl | (rename_i h; rw [h]; rfl)

theorem State.tamperEvent_moves (s : State) : Moves s s.tamperEvent := by
  delta State.tamperEvent
  extract_lets before s1 x s2 s3 s4
  have h1 : Moves s s1 := s.tamperUpdate_moves.then (.one (.latch s.tamperUpdate_state))
  have h2 : Moves s1 s2 := .one (.store _ rfl)
  have h4 : Moves s2 s4 := (s2.requestCapture_moves _ _).then (State.fire_moves _ _ _ _)
  exact ((h1.then h2).then h4).then ((State.notifyAwake_moves _ _).then (State.latch_moves _ _))

theorem State.tampFiltered_moves (s : State) : Moves s s.tampFiltered := by
  delta State.tampFiltered
  extract_lets s1
  have h1 : Moves s s1 := .quiet rfl
  split
  · exact h1.then s1.tamperEvent_moves
  · exact h1

theorem State.requestTamperClear_moves (s : State) (t : Byte) : Moves s (s.requestTamperClear t) := by
  unfold State.requestTamperClear
  split
  · exact s.refuse_moves _ _ _
  · split
    · exact s.refuse_moves _ _ _
    · exact ((Moves.one (.unlatch)).then (State.setStore_moves _ { s.store with tamperFlag := false } rfl)).then
        (State.reply_moves _ _ _ _)

theorem State.startRun_moves (s : State) (k : Slot) : Moves s (s.startRun k) :=
  Moves.then (t := s.takeImage k) (.quiet rfl)
    ((State.rebuildNodes_moves _ .A).then (State.rebuildNodes_moves _ .B))

theorem State.endSelection_moves (s : State) : Moves s s.endSelection := by
  delta State.endSelection
  extract_lets s1 s2
  have ha : Moves s { s with store := s.store.examined } := s.setStore_moves _ rfl
  have hb : Moves { s with store := s.store.examined } { s with store := s.store.examined, link := s.link.openLink } :=
    State.openLink_moves _
  have h1 : Moves s s1 := (ha.then hb).then (.quiet rfl)
  have h2 : Moves s1 s2 := s1.closed_moves (fun u => { u.emptied with latch := s1.store.tamperFlag }) rfl rfl rfl
  split
  · extract_lets s3
    have h3 : Moves s2 s3 := (s2.startRun_moves _).then (State.setSleep_moves _ _)
    exact (((((h1.then h2).then h3).then s3.startCursor_moves).then (State.joinInternal_moves _ .A _)).then
      (State.joinInternal_moves _ .B _)).then (State.pendingSurveys_moves _)
  · exact (h1.then h2).then ((State.joinInternal_moves _ .A _).then (State.joinInternal_moves _ .B _))

/-! ### The requests -/

theorem State.requestReadRound_moves (s : State) (t : Byte) (n : RoundNumber) : Moves s (s.requestReadRound t n) := by
  unfold State.requestReadRound
  split
  · split <;> exact s.reply_moves _ _ _
  · exact s.reply_moves _ _ _

theorem State.requestCaptureNow_moves (s : State) (t : Byte) : Moves s (s.requestCaptureNow t) := by
  unfold State.requestCaptureNow
  split
  · rename_i h
    exact ((s.addCapture_moves _ h).then (State.reply_moves _ _ _ _)).then (State.noticeDone_moves _ _)
  · exact (s.recordRefusal_moves _).then (State.reply_moves _ _ _ _)

theorem State.requestReadCapture_moves (s : State) (t i p n : Byte) : Moves s (s.requestReadCapture t i p n) := by
  unfold State.requestReadCapture
  split
  · exact s.reply_moves _ _ _
  · exact s.reply_moves _ _ _
  · exact s.reply_moves _ _ _
  · split <;> exact s.reply_moves _ _ _
  · split <;> exact s.reply_moves _ _ _

theorem State.requestRelease_moves (s : State) (t i : Byte) : Moves s (s.requestRelease t i) := by
  unfold State.requestRelease
  split
  · exact (s.releaseCapture_moves _).then (State.reply_moves _ _ _ _)
  · exact s.reply_moves _ _ _

theorem State.connectRefusal_none (s : State) (h : s.connectRefusal = none) :
    s.sleep.op = .run ∧ s.sequencer.state = .idle ∧ s.inhibit = [] := by
  unfold State.connectRefusal at h
  split at h
  · cases h
  · rename_i h1
    split at h
    · cases h
    · rename_i h2
      split at h
      · cases h
      · rename_i h3
        exact ⟨by simpa using h1, by simpa using h2, by simpa using h3⟩

theorem State.requestConnect_moves (s : State) (t : Byte) : Moves s (s.requestConnect t) := by
  unfold State.requestConnect
  split
  · exact s.refuse_moves _ _ _
  · rename_i h
    exact ((s.reply_moves _ _ _).then (State.setSequencer_moves _ _ fun g => by cases g)).then
      (State.closeRole_moves _ _ (s.connectRefusal_none h).2.2 (by simp))

theorem State.requestDisconnect_moves (s : State) (t : Byte) : Moves s (s.requestDisconnect t) := by
  delta State.requestDisconnect
  have abandon : Moves s (((s.reply t .accepted .none).noticeWithOpenings
      (fun u => u.noticeSequence .aborted (some s.sequencer.state) none none none none)
      (s.reply t .accepted .none).closedChannels none).setSequencer fun q =>
        { q.clearPrecharge with state := .disconnecting }) :=
    ((s.reply_moves _ _ _).then (State.noticeWithOpenings_moves _ (fun u => u.noticeSequence_moves _ _ _ _ _ _) _ _)).then
      (State.setSequencer_moves _ _ fun g => by cases g)
  have stop : Moves s (if s.allOpen = true then (s.reply t .done .none).enterIdle
      else ((s.reply t .accepted .none).openRequests (s.reply t .accepted .none).closedChannels .sequencer
        none).setSequencer fun q => { q with state := .disconnecting }) := by
    split
    · rename_i h
      exact (s.reply_moves _ _ _).then (State.enterIdle_moves _ h)
    · exact ((s.reply_moves _ _ _).then (State.openRequests_moves _ _ _ _)).then
        (State.setSequencer_moves _ _ fun g => by cases g)
  split
  · exact s.reply_moves _ _ _
  · exact ((s.reply_moves _ _ _).then (State.openRequests_moves _ _ _ _)).then
      (State.setSequencer_moves _ _ fun g => by cases g)
  iterate 4 exact abandon
  iterate 2 exact stop
  exact s.reply_moves _ _ _

theorem State.requestAuxClose_moves (s : State) (t : Byte) : Moves s (s.requestAuxClose t) := by
  unfold State.requestAuxClose
  split
  · exact s.refuse_moves _ _ _
  · rename_i hq
    split
    · exact s.refuse_moves _ _ _
    · rename_i hi
      have hq : s.sequencer.state = .connected := by simpa using hq
      have hi : s.inhibit = [] := by simpa using hi
      split
      · exact s.reply_moves _ _ _
      · rename_i k _
        split
        · refine (Moves.anyOrderWith (fun s => s.inhibit = [] ∧ s.sequencer.state = .connected) _
            (fun f hf s q => ?_) s ⟨hi, hq⟩).1
          simp only [List.mem_cons, List.not_mem_nil, or_false] at hf
          rcases hf with rfl | rfl
          · exact ⟨s.reply_moves _ _ _, q⟩
          · refine ⟨s.closeRequest_moves k q.1 (by rw [q.2]; simp), ?_⟩
            obtain ⟨c, d, w, l, h⟩ := s.closeRequest_frame k
            dsimp only
            rw [h]
            exact q
        · exact s.reply_moves _ _ _
        · exact s.reply_moves _ _ _

theorem State.requestAuxOpen_moves (s : State) (t : Byte) : Moves s (s.requestAuxOpen t) := by
  unfold State.requestAuxOpen
  refine Moves.anyOrder _ (fun f hf s => ?_) s
  rcases List.mem_cons.mp hf with rfl | hf
  · exact s.reply_moves _ _ _
  · obtain ⟨k, _, rfl⟩ := List.mem_map.mp hf
    exact s.openRequest_moves k _ none

end Sys2Proof.Machine
end

