-- ==== Sys2Proof/Laws/Steps.lean ====
section
/-! SUPPORT. What a whole step is: moves, or the removal of a cause by ACK_TRIP among moves, and after either perhaps a
reset. -/

namespace Sys2Proof.Machine

/-- A cause leaves the reclose inhibit set among moves, the later ones changing no channel's state (R130). -/
def Acked (s t : State) : Prop :=
  ∃ u l, Moves s u ∧ l.Sublist u.inhibit ∧ Moves { u with inhibit := l } t ∧
    ∀ k, (t.channel k).state = (u.channel k).state

/-- What a command does short of a reset. -/
def Changed (s t : State) : Prop := Moves s t ∨ Acked s t

/-- What every reset leaves of the guarded blocks (R2, R181, R182). -/
structure Resets (s t : State) : Prop where
  opened    : ∀ k, (t.channel k).state = .opened
  drives    : t.drives = .four .off
  sequencer : t.sequencer = .reset
  inhibit   : t.inhibit = []
  window    : t.window = .disarmed
  update    : t.update = .reset
  store     : t.store = s.store
  link      : t.link = .reset s.selected
  stream    : t.stream = .reset
  captures  : t.captures = .reset
  ring      : t.ring = []
  op        : t.sleep.op = .unconfigured

theorem Changed.before {s t u : State} (h : Moves s t) (g : Changed t u) : Changed s u := by
  rcases g with g | ⟨v, l, a, b, c, d⟩
  · exact .inl (h.then g)
  · exact .inr ⟨v, l, h.then a, b, c, d⟩

theorem Changed.after {s t u : State} (h : Changed s t) (g : Moves t u)
    (hk : ∀ k, (u.channel k).state = (t.channel k).state) : Changed s u := by
  rcases h with h | ⟨v, l, a, b, c, d⟩
  · exact .inl (h.then g)
  · exact .inr ⟨v, l, a, b, c.then g, fun k => (hk k).trans (d k)⟩

/-! ### Frames -/

/-- Placing a round writes the ring and the captures alone. -/
theorem State.placeRound_frame (s : State) (r : RoundRecord) :
    ∃ ring captures, s.placeRound r = { s with ring := ring, captures := captures } := by
  delta State.placeRound
  extract_lets s1
  have h : ∃ ring captures, s1 = { s with ring := ring, captures := captures } := by
    unfold s1
    split
    · exact ⟨_, _, rfl⟩
    · exact ⟨s.ring, s.captures, rfl⟩
  obtain ⟨x, y, h⟩ := h
  rw [h]
  exact ⟨_, _, rfl⟩

theorem State.allOpen_iff (s : State) : s.allOpen = true ↔ ∀ k, (s.channel k).state = .opened := by
  constructor
  · intro h k
    simp [State.allOpen, State.isOpen, ChannelId.all] at h
    cases k <;> simp [h]
  · intro h
    simp [State.allOpen, State.isOpen, ChannelId.all, h]

/-! ### The end of an event changes no channel's state -/

theorem State.placeRound_channels (s : State) (r : RoundRecord) : (s.placeRound r).channels = s.channels := by
  obtain ⟨x, y, h⟩ := s.placeRound_frame r
  rw [h]

theorem State.grantClaim_channels (s : State) (c : Chain) : (s.grantClaim c).channels = s.channels := by
  delta State.grantClaim
  extract_lets send
  split
  · split
    · exact State.placeRound_channels _ _
    · rfl
  · split <;> rfl

theorem State.grantOrder_channels (s : State) (c : Chain) (o : Order) : (s.grantOrder c o).channels = s.channels := by
  delta State.grantOrder
  extract_lets ended
  split <;> rfl

theorem State.arbitrate_channels (s : State) (c : Chain) : (s.arbitrate c).channels = s.channels := by
  unfold State.arbitrate
  split
  · delta State.decide
    extract_lets p
    split
    · exact s.grantClaim_channels c
    · split
      · split <;> exact State.grantOrder_channels _ _ _
      · exact State.grantOrder_channels _ _ _
      · exact State.grantOrder_channels _ _ _
      · rfl
  · rfl

theorem State.arbitrateBoth_channels (s : State) : s.arbitrateBoth.channels = s.channels :=
  (State.arbitrate_channels _ .B).trans (s.arbitrate_channels .A)

theorem State.broadcast_channels (s : State) (o : Order) (cs : List Chain) : (s.broadcast o cs).channels = s.channels := by
  unfold State.broadcast
  induction cs generalizing s with
  | nil => rfl
  | cons c cs ih => exact (ih _).trans rfl

theorem State.settleCursor_channels (s : State) : s.settleCursor.channels = s.channels := by
  delta State.settleCursor
  extract_lets x s1
  have h1 : s1.channels = s.channels := by unfold s1; split <;> rfl
  split
  · exact (State.arbitrateBoth_channels _).trans ((State.broadcast_channels _ _ _).trans h1)
  · exact h1

theorem State.stopOscillator_channel (s : State) (k : ChannelId) :
    (s.stopOscillator.channel k).state = (s.channel k).state := by
  cases k <;> rfl

theorem State.fallAsleep_channel (s : State) (k : ChannelId) : (s.fallAsleep.channel k).state = (s.channel k).state := by
  delta State.fallAsleep
  extract_lets s1 s2
  have h : (s2.channel k).state = (s.channel k).state := s.stopOscillator_channel k
  split <;> exact h

/-- The end of an event changes no channel's state. -/
theorem State.finish_channel (s : State) (k : ChannelId) : (s.finish.channel k).state = (s.channel k).state := by
  delta State.finish
  extract_lets s1
  have h : s1.channels = s.channels := (State.settleCursor_channels _).trans s.arbitrateBoth_channels
  have h1 : (s1.channel k).state = (s.channel k).state := by unfold State.channel; rw [h]
  split
  · exact (s1.fallAsleep_channel k).trans h1
  · exact h1

/-! ### The requests -/

theorem State.requestAck_acked (s : State) (t k f g : Byte) : Changed s (s.requestAck t k f g) := by
  unfold State.requestAck
  split
  · exact .inl (s.reply_moves _ _ _)
  · split
    · exact .inl (s.reply_moves _ _ _)
    · split
      · exact .inr ⟨s, _, .refl, List.filter_sublist, State.reply_moves _ _ _ _, fun _ => rfl⟩
      · exact .inl (s.reply_moves _ _ _)

theorem State.handle_changed (s : State) (i : Instr) : Changed s (s.handle i) := by
  cases i with
  | ackTrip t k f g => exact s.requestAck_acked t k f g
  | pass c p o t d => exact .inl ((s.requestPass_moves c p o t d).then (State.finish_moves _))
  | status t x => exact .inl (s.requestStatus_moves t x)
  | bridgeReset t => exact .inl (s.requestBridgeReset_moves t)
  | chainStopDrain t c => exact .inl ((s.requestDrain_moves t c).then (State.finish_moves _))
  | chainStopAbort t c => exact .inl ((s.requestAbort_moves t c).then (State.finish_moves _))
  | chainStart t c => exact .inl ((s.requestStart_moves t c).then (State.finish_moves _))
  | survey t c => exact .inl ((s.requestSurveyNow_moves t c).then (State.finish_moves _))
  | readRound t n => exact .inl (s.requestReadRound_moves t n)
  | captureNow t => exact .inl (s.requestCaptureNow_moves t)
  | readCapture t i p n => exact .inl (s.requestReadCapture_moves t i p n)
  | releaseCapture t i => exact .inl (s.requestRelease_moves t i)
  | connect t => exact .inl (s.requestConnect_moves t)
  | disconnect t => exact .inl (s.requestDisconnect_moves t)
  | auxClose t => exact .inl (s.requestAuxClose_moves t)
  | auxOpen t => exact .inl (s.requestAuxOpen_moves t)
  | supervise t n => exact .inl (s.requestSupervise_moves t n)
  | sleep t => exact .inl ((s.requestSleep_moves t).then (State.finish_moves _))
  | updateOpen t e => exact .inl (s.requestUpdateOpen_moves t e)
  | updateStage t b i r => exact .inl (s.requestStage_moves t b i r)
  | readRecord t b i x => exact .inl (s.requestReadRecord_moves t b i x)
  | updateCommit t w => exact .inl (s.requestCommit_moves t w)
  | updateAbort t => exact .inl (s.requestUpdateAbort_moves t)
  | tamperClear t => exact .inl (s.requestTamperClear_moves t)
  | _ => exact .inl .refl

theorem State.takeInbound_changed (s : State) (f : State → State) (h : ∀ s, Changed s (f s)) :
    Changed s (s.takeInbound f) := by
  unfold State.takeInbound
  split
  · exact .inl .refl
  · split
    · rename_i g
      exact .before (.one (.accept g)) (h _)
    · exact .inl (.one (.link _ (List.Sublist.refl _) (Nat.le_refl _)))

theorem State.judgeInbound_changed (s : State) (b : List Byte) : Changed s (s.judgeInbound b) := by
  have flags : ∀ l : HostLink, l.queue = s.link.queue → l.owed = s.link.owed → Changed s { s with link := l } :=
    fun l hq ho => .inl (.one (.link l (by rw [hq]) (by rw [ho])))
  unfold State.judgeInbound
  split
  · exact flags _ rfl rfl
  · exact flags _ rfl rfl
  · exact s.takeInbound_changed _ fun s => .inl (s.reply_moves _ _ _)
  · exact s.takeInbound_changed _ fun s => s.handle_changed _

theorem State.judgeClosing_moves (s : State) (b : List Byte) : Moves s (s.judgeClosing b) := by
  have flags : ∀ l : HostLink, l.queue = s.link.queue → l.owed = s.link.owed → Moves s { s with link := l } :=
    fun l hq ho => .one (.link l (by rw [hq]) (by rw [ho]))
  unfold State.judgeClosing
  split
  · split <;> exact flags _ rfl rfl
  · exact .refl

theorem State.request_changed (s : State) (f : State → State) (h : ∀ s, Changed s (f s)) : Changed s (s.request f) := by
  unfold State.request State.unlessHeld
  split
  · exact .inl .refl
  · exact s.takeInbound_changed _ h

theorem State.unlessHeld_moves (s : State) (f : State → State) (h : Moves s (f s)) : Moves s (s.unlessHeld f) := by
  unfold State.unlessHeld
  split
  · exact .refl
  · exact h

theorem State.timed_moves (s : State) (due : State → Bool) (f : State → State) (h : due s = true → Moves s (f s)) :
    Moves s (s.timed due f) := by
  unfold State.timed
  refine s.unlessHeld_moves _ ?_
  split
  · rename_i g; exact h g
  · exact .refl

/-! ### Resets -/

theorem State.afterReset_resets (s : State) (p : Pins) (n : Nat) (q : List Instr) :
    Resets s (State.afterReset s.store p s.selected n q) :=
  ⟨fun k => by cases k <;> rfl, rfl, rfl, rfl, rfl, rfl, rfl, rfl, rfl, rfl, rfl, rfl⟩

theorem State.pinReset_resets (s : State) : Resets s s.pinReset :=
  ⟨fun k => by cases k <;> rfl, rfl, rfl, rfl, rfl, rfl, rfl, rfl, rfl, rfl, rfl, rfl⟩

/-- A change of the pins that neither begins nor ends a pin reset is quiet. -/
theorem State.guarded_pins (s : State) {p : Pins} {r : ResetPin} (h : s.pins.reset = r) (g : (p.reset == .held) = (r == .held)) :
    ({ s with pins := p } : State).guarded = s.guarded := by
  subst h
  exact congrArg (fun b => (s.channels, s.drives, s.sequencer, s.inhibit, s.window, s.link, s.update, s.store, s.stream,
    s.captures, s.ring, b)) g

/-- What a command does: changes, and perhaps a reset after them. -/
def Stepped (s t : State) : Prop := Changed s t ∨ ∃ u, Changed s u ∧ Resets u t

theorem Moves.stepped {s t : State} (h : Moves s t) : Stepped s t := .inl (.inl h)
theorem Changed.stepped {s t : State} (h : Changed s t) : Stepped s t := .inl h
theorem Resets.stepped {s t : State} (h : Resets s t) : Stepped s t := .inr ⟨s, .inl .refl, h⟩

theorem State.timed_stepped (s : State) (due : State → Bool) (f : State → State) (h : Resets s (f s)) :
    Stepped s (s.timed due f) := by
  unfold State.timed State.unlessHeld
  split
  · exact Moves.refl.stepped
  · dsimp only
    split
    · exact h.stepped
    · exact Moves.refl.stepped

theorem State.resetGoesHigh_stepped (s : State) : Stepped s s.resetGoesHigh := by
  unfold State.resetGoesHigh
  split
  · exact Moves.refl.stepped
  · rename_i h; exact .inl (.inl (.quiet (s.guarded_pins h rfl)))
  · exact (s.afterReset_resets _ _ _).stepped

/-! ### The exchanges -/

theorem State.beginExchange_moves (s : State) : Moves s s.beginExchange := by
  have begun : ∀ e, Moves s { s with link := { s.link with exchange := some e } } :=
    fun e => .one (.link _ (List.Sublist.refl _) (Nat.le_refl _))
  unfold State.beginExchange
  split
  · exact .refl
  · split
    · exact (begun _).then (State.latch_moves _ _)
    · exact begun _

theorem State.shutHostLink_channel (s : State) (k : ChannelId) : (s.shutHostLink.channel k) = s.channel k := rfl

theorem State.endExchange_stepped (s : State) (b : List Byte) : Stepped s (s.endExchange b) := by
  delta State.endExchange
  dsimp only
  split
  · exact Moves.refl.stepped
  · rename_i e _
    have h1 : Moves s { s with link := { s.link with exchange := none } } :=
      .one (.link _ (List.Sublist.refl _) (Nat.le_refl _))
    split
    · exact h1.stepped
    · exact (h1.then (State.judgeClosing_moves _ b)).stepped
    · generalize hu : ((({ s with link := { s.link with exchange := none } } : State).settleExchange e
        b.length).judgeInbound b) = u
      have h2 : Changed s u := by
        rw [← hu]
        exact .before (h1.then (State.settleExchange_moves _ e _)) (State.judgeInbound_changed _ b)
      split
      · unfold State.afterFinal
        split
        · refine .inl (h2.after (u.shutHostLink_moves.then (State.finish_moves _)) fun k => ?_)
          exact State.finish_channel _ k
        · exact .inr ⟨u, h2, u.afterReset_resets _ _ _⟩
        · exact .inl h2
        · exact .inl h2
      · exact .inl h2

/-! ### The other commands -/

theorem State.stepExpires_moves (s : State) : Moves s s.stepExpires := by
  delta State.stepExpires
  extract_lets s1
  have h1 : Moves s s1 := (s.withdrawClaim_moves .A _).then (State.withdrawClaim_moves _ .B _)
  refine h1.then (.then ?_ (State.finish_moves _))
  split
  · exact s1.advance_moves
  · exact .refl

theorem State.feedbackChanges_moves (s : State) (k : ChannelId) (b : Bool) : Moves s (s.feedbackChanges k b) := by
  delta State.feedbackChanges
  extract_lets x s1
  refine Moves.then (t := s1) (.quiet rfl) (s1.unlessHeld_moves _ ?_)
  split
  · exact s1.takeRaw_moves k b
  · exact .refl

theorem State.minimumExpires_moves (s : State) (h : s.sequencer.state ≠ .idle) : Moves s s.minimumExpires := by
  delta State.minimumExpires
  extract_lets s1
  have h1 : Moves s s1 := s.setSequencer_moves _ fun g => absurd g h
  split
  · split
    · exact h1.then (s1.prechargeEndsWell_moves h)
    · exact h1
  · exact h1

theorem State.wakeInputChanges_moves (s : State) (i : WakeInput) (b : Bool) : Moves s (s.wakeInputChanges i b) := by
  unfold State.wakeInputChanges
  split
  · exact .refl
  · exact Moves.then (t := { s with pins := { s.pins with wake := s.pins.wake.set i b } }) (.quiet rfl)
      (State.unlessHeld_moves _ _ (State.wakeLevel_moves _ i b))

theorem State.tampChanges_moves (s : State) (b : Bool) : Moves s (s.tampChanges b) := by
  unfold State.tampChanges
  split
  · exact .refl
  · exact Moves.then (t := { s with pins := { s.pins with tamp := b } }) (.quiet rfl)
      (State.unlessHeld_moves _ _ (.quiet rfl))

theorem State.svcChanges_moves (s : State) (b : Bool) : Moves s (s.svcChanges b) := by
  unfold State.svcChanges
  split
  · exact .refl
  · exact Moves.then (t := { s with pins := { s.pins with svc := b } }) (.quiet rfl)
      (State.unlessHeld_moves _ _ (.quiet rfl))

theorem State.nextPulse_moves (s : State) : Moves s s.nextPulse := by
  unfold State.nextPulse
  split
  · exact .quiet rfl
  · exact .refl

theorem State.resetGoesLow_moves (s : State) : Moves s s.resetGoesLow := by
  unfold State.resetGoesLow
  split
  · rename_i h; exact .quiet (s.guarded_pins h rfl)
  · exact .refl
  · exact .refl

theorem ResetPin.passMicrosecond_held (r : ResetPin) : (r.passMicrosecond == .held) = (r == .held) := by cases r <;> rfl

theorem State.tick_moves (s : State) : Moves s s.tick := by
  unfold State.tick
  split
  · exact .refl
  · exact .quiet ((s.guarded_pins (p := { s.pins with reset := s.pins.reset.passMicrosecond }) rfl
      s.pins.reset.passMicrosecond_held))

theorem State.updating_state (s : State) (u : UpdateState) (h : s.updating u = true) : s.update.state = u := by
  simpa [State.updating] using h

/-- What a command answers, whatever it is. -/
theorem exec_stepped (i : Instr) (s t : State) (h : exec i s = .next t) : Stepped s t := by
  have req : ∀ f : State → State, (∀ s, Changed s (f s)) → Stepped s (s.request f) :=
    fun f hf => (s.request_changed f hf).stepped
  have due : ∀ (d : State → Bool) (f : State → State), (d s = true → Moves s (f s)) → Stepped s (s.timed d f) :=
    fun d f hf => (s.timed_moves d f hf).stepped
  have awake : ∀ f : State → State, Moves s (f s) → Stepped s (s.unlessHeld f) :=
    fun f hf => (s.unlessHeld_moves f hf).stepped
  cases i with
  | exchangeBegin =>
    cases h
    exact s.beginExchange_moves.stepped
  | exchangeEnd b =>
    cases h
    exact s.endExchange_stepped b
  | pass c p o t d =>
    cases h
    exact req _ fun s => .inl ((s.requestPass_moves c p o t d).then (State.finish_moves _))
  | status t x =>
    cases h
    exact req _ fun s => .inl (s.requestStatus_moves t x)
  | bridgeReset t =>
    cases h
    exact req _ fun s => .inl (s.requestBridgeReset_moves t)
  | resetExpiry =>
    cases h
    exact s.timed_stepped _ _ (s.afterReset_resets _ _ _)
  | chainStopDrain t c =>
    cases h
    exact req _ fun s => .inl ((s.requestDrain_moves t c).then (State.finish_moves _))
  | chainStopAbort t c =>
    cases h
    exact req _ fun s => .inl ((s.requestAbort_moves t c).then (State.finish_moves _))
  | chainStart t c =>
    cases h
    exact req _ fun s => .inl ((s.requestStart_moves t c).then (State.finish_moves _))
  | survey t c =>
    cases h
    exact req _ fun s => .inl ((s.requestSurveyNow_moves t c).then (State.finish_moves _))
  | readRound t n =>
    cases h
    exact req _ fun s => .inl (s.requestReadRound_moves t n)
  | captureNow t =>
    cases h
    exact req _ fun s => .inl (s.requestCaptureNow_moves t)
  | readCapture t i p n =>
    cases h
    exact req _ fun s => .inl (s.requestReadCapture_moves t i p n)
  | releaseCapture t i =>
    cases h
    exact req _ fun s => .inl (s.requestRelease_moves t i)
  | connect t =>
    cases h
    exact req _ fun s => .inl (s.requestConnect_moves t)
  | disconnect t =>
    cases h
    exact req _ fun s => .inl (s.requestDisconnect_moves t)
  | auxClose t =>
    cases h
    exact req _ fun s => .inl (s.requestAuxClose_moves t)
  | auxOpen t =>
    cases h
    exact req _ fun s => .inl (s.requestAuxOpen_moves t)
  | ackTrip t k f g =>
    cases h
    exact req _ fun s => s.requestAck_acked t k f g
  | supervise t n =>
    cases h
    exact req _ fun s => .inl (s.requestSupervise_moves t n)
  | sleep t =>
    cases h
    exact req _ fun s => .inl ((s.requestSleep_moves t).then (State.finish_moves _))
  | updateOpen t e =>
    cases h
    exact req _ fun s => .inl (s.requestUpdateOpen_moves t e)
  | updateStage t b i r =>
    cases h
    exact req _ fun s => .inl (s.requestStage_moves t b i r)
  | readRecord t b i x =>
    cases h
    exact req _ fun s => .inl (s.requestReadRecord_moves t b i x)
  | updateCommit t w =>
    cases h
    exact req _ fun s => .inl (s.requestCommit_moves t w)
  | updateAbort t =>
    cases h
    exact req _ fun s => .inl (s.requestUpdateAbort_moves t)
  | tamperClear t =>
    cases h
    exact req _ fun s => .inl (s.requestTamperClear_moves t)
  | stepExpiry =>
    cases h
    exact due _ _ fun _ => s.stepExpires_moves
  | sampleSet c a p =>
    cases h
    exact awake _ ((s.takeSampleSet_moves c a p).then (State.finish_moves _))
  | sampleSetCheckFailed c a =>
    cases h
    exact awake _ ((s.takeFailedSet_moves c a).then (State.finish_moves _))
  | answer c t a d n =>
    cases h
    exact awake _ ((s.takeAnswer_moves c t a d n).then (State.finish_moves _))
  | orderTimeout c =>
    cases h
    exact due _ _ fun _ => (s.takeTimeout_moves c).then (State.finish_moves _)
  | broadcastSettle c =>
    cases h
    exact due _ _ fun _ => (s.takeSettle_moves c).then (State.finish_moves _)
  | alert c a x =>
    cases h
    exact awake _ (s.takeAlert_moves c a x)
  | triggerFrameEnd c =>
    cases h
    exact due _ _ fun _ => (s.endCollection_moves c _).then (State.finish_moves _)
  | collectionDeadline c =>
    cases h
    exact due _ _ fun _ => (s.endCollection_moves c _).then (State.finish_moves _)
  | currentWord w =>
    cases h
    exact awake _ (s.takeWord_moves w)
  | lossTimerExpiry =>
    cases h
    exact due _ _ fun _ => s.loseStream_moves
  | pullInExpiry k =>
    cases h
    exact due _ _ fun g => s.pullInEnds_moves k (by simp only [State.pullInDue, Bool.and_eq_true, beq_iff_eq] at g; exact g.1)
  | dropoutExpiry k =>
    cases h
    exact due _ _ fun g => s.dropoutEnds_moves k (by simp only [State.dropoutDue, Bool.and_eq_true, beq_iff_eq] at g; exact g.1)
  | feedbackChange k b =>
    cases h
    exact (s.feedbackChanges_moves k b).stepped
  | debounceExpiry k =>
    cases h
    exact due _ _ fun _ => s.debounceEnds_moves k
  | settleExpiry k =>
    cases h
    exact due _ _ fun _ => s.settleEnds_moves k
  | holdPwmPeriod k =>
    cases h
    exact due _ _ fun _ => s.pwmStep_moves k
  | prechargeMinimumExpiry =>
    cases h
    exact due _ _ fun g => s.minimumExpires_moves (by
      simp only [State.minimumDue, Bool.and_eq_true, beq_iff_eq] at g; rw [g.1.1]; simp)
  | prechargeMaximumExpiry =>
    cases h
    exact due _ _ fun _ => s.enterFailed_moves _ _
  | supervisionExpiry =>
    cases h
    exact due _ _ fun _ => s.superviseFault_moves _
  | shutExpiry =>
    cases h
    exact due _ _ fun _ => s.shutHostLink_moves.then (State.finish_moves _)
  | patrolTimerExpiry =>
    cases h
    exact due _ _ fun _ => s.beginPatrol_moves
  | oscStartEnd =>
    cases h
    exact due _ _ fun _ => s.oscillatorReady_moves.then (State.finish_moves _)
  | nodeWakeEnd =>
    cases h
    exact due _ _ fun _ => s.nodesReady_moves.then (State.finish_moves _)
  | wakeInputChange i b =>
    cases h
    exact (s.wakeInputChanges_moves i b).stepped
  | wakeFilterExpiry i =>
    cases h
    exact due _ _ fun _ => s.wakeFiltered_moves i
  | sensePulseStart =>
    cases h
    exact due _ _ fun _ => s.nextPulse_moves
  | sensePulseSample =>
    cases h
    exact due _ _ fun _ => s.samplePulse_moves
  | tampInputChange b =>
    cases h
    exact (s.tampChanges_moves b).stepped
  | tampFilterExpiry =>
    cases h
    exact due _ _ fun _ => s.tampFiltered_moves
  | svcInputChange b =>
    cases h
    exact (s.svcChanges_moves b).stepped
  | svcFilterExpiry =>
    cases h
    exact due _ _ fun _ => .quiet rfl
  | idleExpiry =>
    cases h
    exact due _ _ fun _ => s.closeWindow_moves
  | validationEnd =>
    cases h
    exact due _ _ fun g => s.endValidation_moves (by rw [s.updating_state _ g]; rfl)
  | storeFault =>
    cases h
    exact awake _ s.takeStoreFault_moves
  | writingEnd i =>
    cases h
    exact due _ _ fun g => s.endWriting_moves i (by rw [s.updating_state _ g]; rfl)
  | readbackEnd =>
    cases h
    exact due _ _ fun g => (s.endReadBack_moves (s.updating_state _ g)).then (State.finish_moves _)
  | por =>
    cases h
    exact (s.afterReset_resets _ _ _).stepped
  | resetLow =>
    cases h
    exact s.resetGoesLow_moves.stepped
  | pinReset =>
    cases h
    exact s.timed_stepped _ _ s.pinReset_resets
  | resetHigh =>
    cases h
    exact s.resetGoesHigh_stepped
  | startupSelectionEnd =>
    cases h
    exact due _ _ fun _ => s.endSelection_moves.then (State.finish_moves _)
  | waitingClaimWithdrawal c =>
    cases h
    exact due _ _ fun _ => (s.withdrawClaim_moves c _).then (State.finish_moves _)

theorem Changed.keeps {P : State → Prop} (move : ∀ s t, Move s t → P s → P t)
    (removed : ∀ (s : State) (l : List Cause), l.Sublist s.inhibit → P s → P { s with inhibit := l }) {s t : State}
    (h : Changed s t) (p : P s) : P t := by
  rcases h with g | ⟨u, l, a, b, c, _⟩
  · exact g.keeps move p
  · exact c.keeps move (removed u l b (a.keeps move p))

theorem State.syncWindow_held (s : State) : s.syncWindow.held = s.held := by
  unfold State.syncWindow
  split <;> split <;> rfl

theorem State.placeRound_held (s : State) (r : RoundRecord) : (s.placeRound r).held = s.held := by
  show (if (s.record r.number).isSome then s.takeOut r.number else s).held = s.held
  split
  · rfl
  · rfl

/-- R182: no move begins or ends a pin reset. -/
theorem Move.held {s t : State} (h : Move s t) : t.held = s.held := by
  cases h with
  | quiet h => exact congrArg (fun x => x.2.2.2.2.2.2.2.2.2.2.2) h
  | place r => exact s.placeRound_held r
  | pullIn => exact State.syncWindow_held _
  | dropout => exact State.syncWindow_held _
  | opened => exact State.syncWindow_held _
  | word v n x => exact congrArg (fun p : Pins => p.reset == .held) rfl
  | _ => rfl

/-- R182: what is no reset neither begins nor ends a pin reset. -/
theorem Changed.held {s t : State} (h : Changed s t) : t.held = s.held :=
  h.keeps (P := fun u => u.held = s.held) (fun _ _ m e => m.held.trans e) (fun _ _ _ e => e) rfl

/-- What a step answers. -/
theorem step_stepped (s t : State) (h : step s = .next t) : Stepped s t := by
  unfold step at h
  split at h
  · rename_i i rest _
    have quiet : Moves s { s with pending := rest } := .quiet rfl
    rcases exec_stepped i _ t h with g | ⟨u, g, r⟩
    · exact .inl (.before quiet g)
    · exact .inr ⟨u, .before quiet g, r⟩
  · cases h
    exact s.tick_moves.stepped

/-- A property that every move, every removal of a cause and every reset keeps is kept by every step. -/
theorem step_keeps {P : State → Prop} (move : ∀ s t, Move s t → P s → P t)
    (removed : ∀ (s : State) (l : List Cause), l.Sublist s.inhibit → P s → P { s with inhibit := l })
    (reset : ∀ s t, Resets s t → P s → P t) {s t : State} (h : step s = .next t) (p : P s) : P t := by
  rcases step_stepped s t h with g | ⟨u, g, r⟩
  · exact g.keeps move removed p
  · exact reset u t r (g.keeps move removed p)

end Sys2Proof.Machine
end

