-- ==== Sys2Proof/Laws/Requests.lean ====
section
/-! SUPPORT. What the link does with a request: the frame is taken or discarded, and the REPLY stands at the tail of the
queue; and when a timer command acts. -/

namespace Sys2Proof.Machine

/-- R175: a request that the link takes is handled in the state in which its frame has been taken. -/
theorem State.request_ready (s : State) (f : State → State) (h : s.linkReady) : s.request f = f s.taken := by
  obtain ⟨a, b, c⟩ := h
  unfold State.request State.unlessHeld State.takeInbound
  rw [if_neg (by simp [a])]
  dsimp only
  rw [if_neg (by simp [b]), if_pos (by simp [HostLink.takes, b, c])]
  rfl

/-- R177: an answer joins the tail of the queue of a link that is not SHUT. -/
theorem State.reply_queued (s : State) (tag : Byte) (x : ReplyStatus) (r : ResultData) (h : s.link.state ≠ .shut) :
    s.reply tag x r = s.queued (.reply tag x r) := by
  unfold State.reply State.offer HostLink.offer
  rw [if_pos]
  · rfl
  · unfold HostLink.accepts
    cases g : s.link.state <;> simp_all [Outbound.isAnswer]

theorem State.refuse_queued (s : State) (tag : Byte) (x : ReplyStatus) (r : Reason) (h : s.link.state ≠ .shut) :
    s.refuse tag x r = s.queued (.reply tag x (.reason r)) := s.reply_queued _ _ _ h

theorem State.taken_open (s : State) (h : s.linkReady) : s.taken.link.state ≠ .shut := by
  show s.link.state ≠ .shut
  rw [h.2.1]
  simp

/-- R175, R176: a request answered at once. -/
theorem State.taken_reply (s : State) (h : s.linkReady) (tag : Byte) (x : ReplyStatus) (r : ResultData) :
    s.taken.reply tag x r = s.answered tag x r := s.taken.reply_queued _ _ _ (s.taken_open h)

theorem State.taken_refuse (s : State) (h : s.linkReady) (tag : Byte) (x : ReplyStatus) (r : Reason) :
    s.taken.refuse tag x r = s.answered tag x (.reason r) := s.taken_reply h _ _ _

/-- R175: a request that the link does not take. -/
theorem State.request_discarded (s : State) (f : State → State) (h : s.held = false) (g : s.link.state ≠ .shut)
    (n : s.link.takes = false) : s.request f = { s with link := s.link.discard } := by
  unfold State.request State.unlessHeld State.takeInbound
  rw [if_neg (by simp [h])]
  dsimp only
  rw [if_neg g, if_neg (by simp [n])]

/-- R175, R176: a request command hands its request to the link while no pin reset holds the blocks. -/
theorem exec_request_inbound (i : Instr) (s : State) (q : i.isRequest = true) (h : s.held = false) :
    exec i s = .next (s.takeInbound fun t => t.handle i) := by
  have ready : ∀ f : State → State,
      Host.Outcome.next (φ := Fault) (ρ := Refusal) (s.request f) = .next (s.takeInbound f) := fun f => by
    unfold State.request State.unlessHeld
    rw [if_neg (by simp [h])]
  cases i with
  | pass c p o t d => exact ready fun s => (s.requestPass c p o t d).finish
  | status t x => exact ready fun s => s.requestStatus t x
  | bridgeReset t => exact ready fun s => s.requestBridgeReset t
  | chainStopDrain t c => exact ready fun s => (s.requestDrain t c).finish
  | chainStopAbort t c => exact ready fun s => (s.requestAbort t c).finish
  | chainStart t c => exact ready fun s => (s.requestStart t c).finish
  | survey t c => exact ready fun s => (s.requestSurveyNow t c).finish
  | readRound t n => exact ready fun s => s.requestReadRound t n
  | captureNow t => exact ready fun s => s.requestCaptureNow t
  | readCapture t i p n => exact ready fun s => s.requestReadCapture t i p n
  | releaseCapture t i => exact ready fun s => s.requestRelease t i
  | connect t => exact ready fun s => s.requestConnect t
  | disconnect t => exact ready fun s => s.requestDisconnect t
  | auxClose t => exact ready fun s => s.requestAuxClose t
  | auxOpen t => exact ready fun s => s.requestAuxOpen t
  | ackTrip t k f g => exact ready fun s => s.requestAck t k f g
  | supervise t n => exact ready fun s => s.requestSupervise t n
  | sleep t => exact ready fun s => (s.requestSleep t).finish
  | updateOpen t e => exact ready fun s => s.requestUpdateOpen t e
  | updateStage t b i r => exact ready fun s => s.requestStage t b i r
  | readRecord t b i x => exact ready fun s => s.requestReadRecord t b i x
  | updateCommit t w => exact ready fun s => s.requestCommit t w
  | updateAbort t => exact ready fun s => s.requestUpdateAbort t
  | tamperClear t => exact ready fun s => s.requestTamperClear t
  | _ => exact absurd q (by simp [Instr.isRequest, encodePayload])

/-- R176: a request command that the link takes does what its request does. -/
theorem exec_request (i : Instr) (s : State) (q : i.isRequest = true) (h : s.linkReady) :
    exec i s = .next (s.taken.handle i) := by
  rw [exec_request_inbound i s q h.1]
  unfold State.takeInbound HostLink.takes
  rw [if_neg (by simp [h.2.1]), if_pos (by simp [h.2.1, h.2.2])]
  rfl

/-- A timer command whose timer has run out. -/
theorem State.timed_due (s : State) (due : State → Bool) (f : State → State) (h : s.held = false) (g : due s = true) :
    s.timed due f = f s := by
  unfold State.timed State.unlessHeld
  rw [if_neg (by simp [h])]
  exact if_pos g

/-- A timer command before its time. -/
theorem State.timed_early (s : State) (due : State → Bool) (f : State → State) (g : due s = false) : s.timed due f = s := by
  unfold State.timed State.unlessHeld
  split
  · rfl
  · exact if_neg (by simp [g])

theorem State.unlessHeld_free (s : State) (f : State → State) (h : s.held = false) : s.unlessHeld f = f s := by
  unfold State.unlessHeld
  rw [if_neg (by simp [h])]

end Sys2Proof.Machine
end

