-- ==== Sys2Proof/Laws/Events.lean ====
section
/-! SUPPORT. What each timer command does once its timer has run out, and each event that the lines of the block bring, while
no pin reset holds the blocks; and what little a command does while one does. -/

namespace Sys2Proof.Machine

/-! ### While a pin reset holds the blocks -/

theorem State.request_held (s : State) (f : State → State) (h : s.held = true) : s.request f = s := if_pos h
theorem State.timed_held (s : State) (d : State → Bool) (f : State → State) (h : s.held = true) : s.timed d f = s := if_pos h

/-- R172: HSEL# going low in the SHUT link of an UNCONFIGURED bridge, in which no wake cause is latched. -/
theorem State.beginExchange_unconfigured (s : State) (h : s.link.state = .shut) (o : s.sleep.op = .unconfigured) :
    s.beginExchange = { s with link := { s.link with
      exchange := if s.link.exchange = none then some ⟨.shut, 0xFF#8, none, [], false⟩ else s.link.exchange } } := by
  unfold State.beginExchange State.selected
  cases x : s.link.exchange with
  | none => simp [h, State.latch, o]
  | some e => simp only [Option.isSome_some, if_true, if_neg (Option.some_ne_none e)]; rw [← x]

/-- R182: what a command does to blocks that a pin reset holds: it changes the pins, and the level of HSEL#, alone. -/
theorem exec_held (i : Instr) (s : State) (h : s.held = true) :
    exec i s = .next s ∨ (∃ p : Pins, p.reset = .held ∧ exec i s = .next { s with pins := p }) ∨
      (i = .exchangeBegin ∨ ∃ b, i = .exchangeEnd b) ∨ i = .por ∨ i = .resetHigh := by
  have hr : s.pins.reset = .held := by simpa [State.held] using h
  have pins : ∀ (p : Pins) (f : State → State), p.reset = .held →
      ({ s with pins := p } : State).unlessHeld f = { s with pins := p } := fun p f g => if_pos (beq_iff_eq.2 g)
  cases i with
  | por => exact .inr (.inr (.inr (.inl rfl)))
  | resetHigh => exact .inr (.inr (.inr (.inr rfl)))
  | exchangeBegin => exact .inr (.inr (.inl (.inl rfl)))
  | exchangeEnd b => exact .inr (.inr (.inl (.inr ⟨b, rfl⟩)))
  | feedbackChange k b =>
    exact .inr (.inl ⟨{ s.pins with kfb := s.pins.kfb.set k b }, hr, congrArg Host.Outcome.next (pins { s.pins with kfb := s.pins.kfb.set k b } _ hr)⟩)
  | wakeInputChange n b =>
    by_cases g : s.pins.wake.get n = b
    · exact .inl (congrArg Host.Outcome.next (if_pos g))
    · exact .inr (.inl ⟨{ s.pins with wake := s.pins.wake.set n b }, hr,
        congrArg Host.Outcome.next ((if_neg g).trans (pins { s.pins with wake := s.pins.wake.set n b } _ hr))⟩)
  | tampInputChange b =>
    by_cases g : s.pins.tamp = b
    · exact .inl (congrArg Host.Outcome.next (if_pos g))
    · exact .inr (.inl ⟨{ s.pins with tamp := b }, hr, congrArg Host.Outcome.next ((if_neg g).trans (pins { s.pins with tamp := b } _ hr))⟩)
  | svcInputChange b =>
    by_cases g : s.pins.svc = b
    · exact .inl (congrArg Host.Outcome.next (if_pos g))
    · exact .inr (.inl ⟨{ s.pins with svc := b }, hr, congrArg Host.Outcome.next ((if_neg g).trans (pins { s.pins with svc := b } _ hr))⟩)
  | resetLow => exact .inl (congrArg Host.Outcome.next (by unfold State.resetGoesLow; rw [hr]))
  | _ => exact .inl (congrArg Host.Outcome.next (if_pos h))
/-! ### Otherwise -/

variable (s : State)

theorem exec_resetExpiry (h : s.held = false) (d : s.resetExpiryDue = true) :
    exec .resetExpiry s = .next s.requestReset :=
  congrArg Host.Outcome.next (s.timed_due State.resetExpiryDue State.requestReset h d)

theorem exec_stepExpiry (h : s.held = false) (d : s.stepDue = true) :
    exec .stepExpiry s = .next s.stepExpires :=
  congrArg Host.Outcome.next (s.timed_due State.stepDue State.stepExpires h d)

theorem exec_orderTimeout (c : Chain) (h : s.held = false) (d : s.timeoutDue c = true) :
    exec (.orderTimeout c) s = .next ((s.takeTimeout c).finish) :=
  congrArg Host.Outcome.next (s.timed_due (State.timeoutDue · c) (fun s => (s.takeTimeout c).finish) h d)

theorem exec_broadcastSettle (c : Chain) (h : s.held = false) (d : s.settleDue c = true) :
    exec (.broadcastSettle c) s = .next ((s.takeSettle c).finish) :=
  congrArg Host.Outcome.next (s.timed_due (State.settleDue · c) (fun s => (s.takeSettle c).finish) h d)

theorem exec_triggerFrameEnd (c : Chain) (h : s.held = false) (d : s.triggerEndDue c = true) :
    exec (.triggerFrameEnd c) s = .next ((s.endCollection c .complete).finish) :=
  congrArg Host.Outcome.next (s.timed_due (State.triggerEndDue · c) (fun s => (s.endCollection c .complete).finish) h d)

theorem exec_collectionDeadline (c : Chain) (h : s.held = false) (d : s.deadlineDue c = true) :
    exec (.collectionDeadline c) s = .next ((s.endCollection c .deadline).finish) :=
  congrArg Host.Outcome.next (s.timed_due (State.deadlineDue · c) (fun s => (s.endCollection c .deadline).finish) h d)

theorem exec_waitingClaimWithdrawal (c : Chain) (h : s.held = false) (d : s.withdrawalDue c = true) :
    exec (.waitingClaimWithdrawal c) s = .next ((s.withdrawClaim c .missed).finish) :=
  congrArg Host.Outcome.next (s.timed_due (State.withdrawalDue · c) (fun s => (s.withdrawClaim c .missed).finish) h d)

theorem exec_lossTimerExpiry (h : s.held = false) (d : s.lossDue = true) :
    exec .lossTimerExpiry s = .next s.loseStream :=
  congrArg Host.Outcome.next (s.timed_due State.lossDue State.loseStream h d)

theorem exec_pullInExpiry (k : ChannelId) (h : s.held = false) (d : s.pullInDue k = true) :
    exec (.pullInExpiry k) s = .next (s.pullInEnds k) :=
  congrArg Host.Outcome.next (s.timed_due (State.pullInDue · k) (fun s => s.pullInEnds k) h d)

theorem exec_dropoutExpiry (k : ChannelId) (h : s.held = false) (d : s.dropoutDue k = true) :
    exec (.dropoutExpiry k) s = .next (s.dropoutEnds k) :=
  congrArg Host.Outcome.next (s.timed_due (State.dropoutDue · k) (fun s => s.dropoutEnds k) h d)

theorem exec_debounceExpiry (k : ChannelId) (h : s.held = false) (d : s.debounceDue k = true) :
    exec (.debounceExpiry k) s = .next (s.debounceEnds k) :=
  congrArg Host.Outcome.next (s.timed_due (State.debounceDue · k) (fun s => s.debounceEnds k) h d)

theorem exec_settleExpiry (k : ChannelId) (h : s.held = false) (d : s.channelSettleDue k = true) :
    exec (.settleExpiry k) s = .next (s.settleEnds k) :=
  congrArg Host.Outcome.next (s.timed_due (State.channelSettleDue · k) (fun s => s.settleEnds k) h d)

theorem exec_holdPwmPeriod (k : ChannelId) (h : s.held = false) (d : s.pwmDue k = true) :
    exec (.holdPwmPeriod k) s = .next (s.pwmStep k) :=
  congrArg Host.Outcome.next (s.timed_due (State.pwmDue · k) (fun s => s.pwmStep k) h d)

theorem exec_prechargeMinimumExpiry (h : s.held = false) (d : s.minimumDue = true) :
    exec .prechargeMinimumExpiry s = .next s.minimumExpires :=
  congrArg Host.Outcome.next (s.timed_due State.minimumDue State.minimumExpires h d)

theorem exec_prechargeMaximumExpiry (h : s.held = false) (d : s.maximumDue = true) :
    exec .prechargeMaximumExpiry s = .next (s.enterFailed .prechargeTimeout none) :=
  congrArg Host.Outcome.next (s.timed_due State.maximumDue (fun s => s.enterFailed .prechargeTimeout none) h d)

theorem exec_supervisionExpiry (h : s.held = false) (d : s.supervisionDue = true) :
    exec .supervisionExpiry s = .next (s.superviseFault .timeout) :=
  congrArg Host.Outcome.next (s.timed_due State.supervisionDue (fun s => s.superviseFault .timeout) h d)

theorem exec_shutExpiry (h : s.held = false) (d : s.shutDue = true) :
    exec .shutExpiry s = .next (s.shutHostLink.finish) :=
  congrArg Host.Outcome.next (s.timed_due State.shutDue (fun s => s.shutHostLink.finish) h d)

theorem exec_patrolTimerExpiry (h : s.held = false) (d : s.patrolDue = true) :
    exec .patrolTimerExpiry s = .next s.beginPatrol :=
  congrArg Host.Outcome.next (s.timed_due State.patrolDue State.beginPatrol h d)

theorem exec_oscStartEnd (h : s.held = false) (d : s.oscDue = true) :
    exec .oscStartEnd s = .next (s.oscillatorReady.finish) :=
  congrArg Host.Outcome.next (s.timed_due State.oscDue (fun s => s.oscillatorReady.finish) h d)

theorem exec_nodeWakeEnd (h : s.held = false) (d : s.nodeWakeDue = true) :
    exec .nodeWakeEnd s = .next (s.nodesReady.finish) :=
  congrArg Host.Outcome.next (s.timed_due State.nodeWakeDue (fun s => s.nodesReady.finish) h d)

theorem exec_wakeFilterExpiry (n : WakeInput) (h : s.held = false) (d : s.wakeFilterDue n = true) :
    exec (.wakeFilterExpiry n) s = .next (s.wakeFiltered n) :=
  congrArg Host.Outcome.next (s.timed_due (State.wakeFilterDue · n) (fun s => s.wakeFiltered n) h d)

theorem exec_sensePulseStart (h : s.held = false) (d : s.pulseStartDue = true) :
    exec .sensePulseStart s = .next s.nextPulse :=
  congrArg Host.Outcome.next (s.timed_due State.pulseStartDue State.nextPulse h d)

theorem exec_sensePulseSample (h : s.held = false) (d : s.pulseSampleDue = true) :
    exec .sensePulseSample s = .next s.samplePulse :=
  congrArg Host.Outcome.next (s.timed_due State.pulseSampleDue State.samplePulse h d)

theorem exec_tampFilterExpiry (h : s.held = false) (d : s.tampFilter.due s.time = true) :
    exec .tampFilterExpiry s = .next s.tampFiltered :=
  congrArg Host.Outcome.next (s.timed_due (fun s => s.tampFilter.due s.time) State.tampFiltered h d)

theorem exec_svcFilterExpiry (h : s.held = false) (d : s.svcFilter.due s.time = true) :
    exec .svcFilterExpiry s = .next ({ s with svcFilter := s.svcFilter.expire }) :=
  congrArg Host.Outcome.next (s.timed_due (fun s => s.svcFilter.due s.time) (fun s => { s with svcFilter := s.svcFilter.expire }) h d)

theorem exec_idleExpiry (h : s.held = false) (d : s.idleDue = true) :
    exec .idleExpiry s = .next s.closeWindow :=
  congrArg Host.Outcome.next (s.timed_due State.idleDue State.closeWindow h d)

theorem exec_validationEnd (h : s.held = false) (d : s.updating .validating = true) :
    exec .validationEnd s = .next s.endValidation :=
  congrArg Host.Outcome.next (s.timed_due (State.updating · .validating) State.endValidation h d)

theorem exec_writingEnd (i : Image) (h : s.held = false) (d : s.updating .writing = true) :
    exec (.writingEnd i) s = .next (s.endWriting i) :=
  congrArg Host.Outcome.next (s.timed_due (State.updating · .writing) (fun s => s.endWriting i) h d)

theorem exec_readbackEnd (h : s.held = false) (d : s.updating .verifying = true) :
    exec .readbackEnd s = .next (s.endReadBack.finish) :=
  congrArg Host.Outcome.next (s.timed_due (State.updating · .verifying) (fun s => s.endReadBack.finish) h d)

theorem exec_pinReset (h : s.held = false) (d : s.pinResetDue = true) :
    exec .pinReset s = .next s.pinReset :=
  congrArg Host.Outcome.next (s.timed_due State.pinResetDue State.pinReset h d)

theorem exec_startupSelectionEnd (h : s.held = false) (d : s.selecting = true) :
    exec .startupSelectionEnd s = .next (s.endSelection.finish) :=
  congrArg Host.Outcome.next (s.timed_due State.selecting (fun s => s.endSelection.finish) h d)

theorem exec_sampleSet (c : Chain) (a : Byte) (p : List Byte) (h : s.held = false) :
    exec (.sampleSet c a p) s = .next ((s.takeSampleSet c a p).finish) :=
  congrArg Host.Outcome.next (s.unlessHeld_free (fun s => (s.takeSampleSet c a p).finish) h)

theorem exec_sampleSetCheckFailed (c : Chain) (a : Byte) (h : s.held = false) :
    exec (.sampleSetCheckFailed c a) s = .next ((s.takeFailedSet c a).finish) :=
  congrArg Host.Outcome.next (s.unlessHeld_free (fun s => (s.takeFailedSet c a).finish) h)

theorem exec_answer (c : Chain) (t : BitVec 4) (a : Byte) (d : List Byte) (r : Stamp) (h : s.held = false) :
    exec (.answer c t a d r) s = .next ((s.takeAnswer c t a d r).finish) :=
  congrArg Host.Outcome.next (s.unlessHeld_free (fun s => (s.takeAnswer c t a d r).finish) h)

theorem exec_alert (c : Chain) (a x : Byte) (h : s.held = false) :
    exec (.alert c a x) s = .next (s.takeAlert c a x) :=
  congrArg Host.Outcome.next (s.unlessHeld_free (fun s => s.takeAlert c a x) h)

theorem exec_currentWord (w : BitVec 32) (h : s.held = false) :
    exec (.currentWord w) s = .next (s.takeWord w) :=
  congrArg Host.Outcome.next (s.unlessHeld_free (fun s => s.takeWord w) h)

theorem exec_storeFault (h : s.held = false) :
    exec .storeFault s = .next s.takeStoreFault :=
  congrArg Host.Outcome.next (s.unlessHeld_free (State.takeStoreFault) h)

end Sys2Proof.Machine
end

