-- ==== Sys2Proof/Laws/Due.lean ====
section
/-! SUPPORT. When each timer command is due, in terms of the state (entry 2). -/

namespace Sys2Proof.Machine

theorem mem_raise (b : Bool) (i j : Instr) : i ∈ raise b j ↔ b = true ∧ i = j := by
  unfold raise; cases b <;> simp

theorem expired_iff (d : Option Instant) (now : Instant) : expired d now = true ↔
    ∃ x, d = some x ∧ reached x now = true := by
  unfold expired; cases d <;> simp

/-- R139, R181: the exchange in progress has clocked the last frame out whole. -/
theorem State.finalClocked_iff (s : State) : s.finalClocked = true ↔
    ∃ e q, s.link.exchange = some e ∧ e.kind = .live ∧ e.frame = some q ∧ q.final = true ∧
      q.frame.bytes.length + 1 ≤ e.bits.length / 8 := by
  unfold State.finalClocked
  cases h : s.link.exchange with
  | none => simp
  | some e =>
    unfold Exchange.clockedFinal Exchange.whole Exchange.clocked
    cases g : e.frame with
    | none => simp [g]
    | some q => simp [g, and_comm]

theorem exists_chain (p : Chain → Prop) : (∃ c, p c) ↔ p .A ∨ p .B :=
  ⟨fun ⟨c, h⟩ => by cases c; exact Or.inl h; exact Or.inr h, fun h => h.elim (fun h => ⟨_, h⟩) fun h => ⟨_, h⟩⟩

theorem State.collectingPart_iff (s : State) (c : Chain) (r : RoundRecord) (p : ChainPart) :
    s.collectingPart c = some (r, p) ↔ s.collectingRound c = some r ∧ r.part c = some p := by
  unfold State.collectingPart
  cases h : s.collectingRound c with
  | none => simp
  | some x =>
    cases g : x.part c with
    | none => simp [g]; intro e; subst e; simp [g]
    | some q => simp [g]; rintro rfl; rw [g]; simp

theorem State.deadlineDue_iff (s : State) (c : Chain) : s.deadlineDue c = true ↔
    ∃ r p a, s.collectingRound c = some r ∧ r.part c = some p ∧
    p.actual = some a ∧ reached (a + micros (s.windowOf c)) s.time = true := by
  simp only [← State.collectingPart_iff, ← and_assoc]
  unfold State.deadlineDue
  split
  · rename_i r p h
    cases g : p.actual with
    | none => simp; rintro r' p' x e g'; rw [h] at e; cases e; rw [g] at g'; exact absurd g' (by simp)
    | some a =>
      simp; constructor
      · intro e; exact ⟨r, p, a, ⟨h, g⟩, e⟩
      · rintro ⟨r', p', a', ⟨e, g'⟩, k⟩; rw [h] at e; cases e; rw [g] at g'; cases g'; exact k
  · rename_i h; rw [h]; simp

theorem State.triggerEndDue_iff (s : State) (c : Chain) : s.triggerEndDue c = true ↔
    ∃ r p a, s.collectingRound c = some r ∧ r.part c = some p ∧
    p.actual = some a ∧ p.readings = [] ∧ reached (a + 40#32) s.time = true := by
  simp only [← State.collectingPart_iff, ← and_assoc]
  unfold State.triggerEndDue
  split
  · rename_i r p h
    cases g : p.actual with
    | none => simp; rintro r' p' x e g'; rw [h] at e; cases e; rw [g] at g'; exact absurd g' (by simp)
    | some a =>
      simp; constructor
      · rintro ⟨n, e⟩; exact ⟨r, p, a, ⟨⟨h, g⟩, n⟩, e⟩
      · rintro ⟨r', p', a', ⟨⟨e, g'⟩, n⟩, k⟩; rw [h] at e; cases e; rw [g] at g'; cases g'; exact ⟨n, k⟩
  · rename_i h; rw [h]; simp

theorem RoundRecord.claimOverdue_iff (r : RoundRecord) (c : Chain) (w : Nat) (now : Instant) :
    r.claimOverdue c w now = true ↔
    r.waitsFor c = true ∧ (r.step = .wake ∨ r.step = .patrol) ∧ reached (r.planned + micros w) now = true := by
  unfold RoundRecord.claimOverdue; simp [and_assoc]

theorem State.withdrawalDue_iff (s : State) (c : Chain) : s.withdrawalDue c = true ↔
    ∃ r, (s.pendingRound = some r ∨ s.pendingRound = none ∧ s.waitingRound c = some r) ∧
          r.waitsFor c = true ∧ (r.step = .wake ∨ r.step = .patrol) ∧
          reached (r.planned + micros (s.windowOf c)) s.time = true := by
  simp only [← RoundRecord.claimOverdue_iff]
  unfold State.withdrawalDue
  cases s.pendingRound with
  | some r => simp
  | none => cases s.waitingRound c <;> simp

theorem State.timeoutDue_iff (s : State) (c : Chain) : s.timeoutDue c = true ↔ ∃ o tag ended due,
    (s.port c).transaction = some (.order o tag ended due) ∧ reached due s.time = true := by
  unfold State.timeoutDue
  split
  · rename_i h; rw [h]; simp
  · rename_i h; simp; rintro o t e d g; exact absurd g (h o t e d)

theorem State.settleDue_iff (s : State) (c : Chain) : s.settleDue c = true ↔ ∃ o due,
    (s.port c).transaction = some (.broadcast o due) ∧ reached due s.time = true := by
  unfold State.settleDue
  split
  · rename_i h; rw [h]; simp
  · rename_i h; simp; rintro o d g; exact absurd g (h o d)

theorem State.stepDue_iff (s : State) : s.stepDue = true ↔ reached s.stepEnd s.time = true ∧ (s.cursor.state = .running ∨
          s.cursor.state = .stopping ∧ ∃ c, s.claimWaits c = true) := by
  rw [exists_chain]; unfold State.stepDue; cases s.cursor.state <;> simp

theorem State.pwmDue_iff (s : State) (k : ChannelId) : s.pwmDue k = true ↔
    (s.channel k).state = .hold ∧ ∃ p, (s.drives.get k).pwm = some p ∧
          (reached (p.start + micros p.period) s.time = true ∨
            (s.drives.get k).on = true ∧ p.onTime < p.period ∧ reached (p.start + micros p.onTime) s.time = true) := by
  unfold State.pwmDue State.pwmPeriodDue State.pwmOffDue
  generalize s.drives.get k = d
  rcases d with ⟨on, _ | p⟩
  · cases on <;> simp
  · cases on <;> simp

theorem State.patrolDue_iff (s : State) : s.patrolDue = true ↔
    s.sleep.op = .asleep ∧ ∃ next, s.sleep.patrolTimer = some ⟨next, 0⟩ := by
  unfold State.patrolDue
  rcases s.sleep.patrolTimer with _ | ⟨a, b⟩ <;> simp

theorem State.pulseStartDue_iff (s : State) : s.pulseStartDue = true ↔
    s.sleepWork.senseOut = false ∧ ∃ x, s.sleepWork.pulseStart = some x ∧
          reached (x + micros s.pulsePeriod) s.time = true := by
  unfold State.pulseStartDue; cases s.sleepWork.pulseStart <;> simp

theorem State.pulseSampleDue_iff (s : State) : s.pulseSampleDue = true ↔
    s.sleepWork.senseOut = true ∧ ∃ x, s.sleepWork.pulseStart = some x ∧
          reached (x + micros s.pulseOn) s.time = true := by
  unfold State.pulseSampleDue; cases s.sleepWork.pulseStart <;> simp

theorem State.pinResetDue_iff (s : State) : s.pinResetDue = true ↔ ∃ n, s.pins.reset = .low n ∧ 10 ≤ n := by
  unfold State.pinResetDue; cases s.pins.reset <;> simp

/-- R178: a head frame is clocked out whole with the status byte before it. -/
theorem Exchange.whole_iff (e : Exchange) (n : Nat) : e.whole n = true ↔
    ∃ q, e.frame = some q ∧ q.frame.bytes.length + 1 ≤ n := by
  unfold Exchange.whole; cases e.frame <;> simp

end Sys2Proof.Machine
end

