-- ==== Sys2Proof/Laws/Reception.lean ====
section
/-! SUPPORT. What a byte from upward does to a Chain Port, and what the bytes of one frame do together (R183). -/

namespace Sys2Proof.Machine

variable (s : State) (c : Chain) (tenth : Fin 10)

/-- The start instant of a byte whose last bit arrives in the present µs. -/
def State.byteStart : Stamp := Sys2Proof.Machine.byteStart ⟨s.time, tenth⟩

/-- A port whose reception is replaced. -/
def State.hearing (r : Reception) : State := s.setPort c { s.port c with reception := r }

theorem State.receiveByte_eq (h : s.held = false) (b : Byte) : s.receiveByte c tenth b =
    { s.hearing c (Reception.take (s.port c).reception c ⟨s.time, tenth⟩ b).1 with
      pending := s.pending ++ (Reception.take (s.port c).reception c ⟨s.time, tenth⟩ b).2.toList } := by
  unfold State.receiveByte State.unlessHeld
  rw [if_neg (by simp [h])]
  rfl

@[simp] theorem State.hearing_held (r : Reception) : (s.hearing c r).held = s.held := rfl
@[simp] theorem State.hearing_pending (r : Reception) : (s.hearing c r).pending = s.pending := rfl
@[simp] theorem State.hearing_reception (r : Reception) : ((s.hearing c r).port c).reception = r := by cases c <;> rfl
@[simp] theorem State.hearing_hearing (r r' : Reception) : (s.hearing c r).hearing c r' = s.hearing c r' := by
  cases c <;> rfl
theorem State.hearing_self (r : Reception) (h : (s.port c).reception = r) : s.hearing c r = s := by
  subst h
  cases c <;> rfl

/-- Outside a frame a byte that is no delimiter is discarded. -/
theorem State.receiveByte_noise (h : s.held = false) (g : (s.port c).reception = .hunting) (b : Byte) (n : b ≠ 0xA5#8) :
    s.receiveByte c tenth b = s := by
  rw [s.receiveByte_eq c tenth h, g]
  show { s.hearing c (if b = 0xA5#8 then .frame (s.byteStart tenth) [] else .hunting) with pending := s.pending ++ [] } = s
  rw [if_neg n, s.hearing_self c _ g, List.append_nil]

theorem State.receive_noise (h : s.held = false) (g : (s.port c).reception = .hunting) (noise : List Byte)
    (n : 0xA5#8 ∉ noise) : noise.foldl (fun s b => s.receiveByte c tenth b) s = s := by
  induction noise with
  | nil => rfl
  | cons b rest ih =>
    rw [List.foldl_cons, s.receiveByte_noise c tenth h g b fun e => n (e ▸ List.mem_cons_self)]
    exact ih fun m => n (List.mem_cons_of_mem _ m)

theorem State.receiveByte_delimiter (h : s.held = false) (g : (s.port c).reception = .hunting) :
    s.receiveByte c tenth 0xA5#8 = s.hearing c (.frame (s.byteStart tenth) []) := by
  rw [s.receiveByte_eq c tenth h, g]
  show { s.hearing c (.frame (s.byteStart tenth) []) with pending := s.pending ++ [] } = _
  rw [List.append_nil]
  rfl

theorem State.receiveByte_more (h : s.held = false) (start : Stamp) (f : List Byte) (b : Byte) (e : frameEnds (f ++ [b]) = false) :
    (s.hearing c (.frame start f)).receiveByte c tenth b = s.hearing c (.frame start (f ++ [b])) := by
  rw [(s.hearing c (.frame start f)).receiveByte_eq c tenth h, State.hearing_reception]
  simp only [Reception.take, e, Bool.false_eq_true, if_false, Option.toList_none, List.append_nil, State.hearing_hearing,
    State.hearing_pending]
  rfl

theorem State.receiveByte_end (h : s.held = false) (start : Stamp) (f : List Byte) (b : Byte) (e : frameEnds (f ++ [b]) = true) :
    (s.hearing c (.frame start f)).receiveByte c tenth b =
      { s.hearing c .hunting with pending := s.pending ++ (judgeUpward c (f ++ [b]) start).toList } := by
  rw [(s.hearing c (.frame start f)).receiveByte_eq c tenth h, State.hearing_reception]
  simp only [Reception.take, e, if_true, State.hearing_hearing, State.hearing_pending]

/-- Bytes none of which ends the frame but the last. -/
theorem State.receive_frame (h : s.held = false) (g : (s.port c).reception = .hunting) (start : Stamp) (f rest : List Byte)
    (more : ∀ p q, p ≠ [] → q ≠ [] → rest = p ++ q → frameEnds (f ++ p) = false) (ends : frameEnds (f ++ rest) = true)
    (n : rest ≠ []) :
    rest.foldl (fun s b => s.receiveByte c tenth b) (s.hearing c (.frame start f)) =
      { s with pending := s.pending ++ (judgeUpward c (f ++ rest) start).toList } := by
  induction rest generalizing f with
  | nil => exact absurd rfl n
  | cons b rest ih =>
    rw [List.foldl_cons]
    cases rest with
    | nil =>
      rw [s.receiveByte_end c tenth h start f b ends, List.foldl_nil, s.hearing_self c _ g]
    | cons x rest =>
      rw [s.receiveByte_more c tenth h start f b (more [b] (x :: rest) (by simp) (by simp) rfl)]
      have := ih (f ++ [b]) (fun p q np nq e => by
          have := more (b :: p) q (by simp) nq (by rw [e]; rfl)
          simpa using this) (by simpa using ends) (by simp)
      simpa using this

/-- The bytes after the delimiter of a whole frame. -/
theorem frameEnds_short (k a : Byte) : frameEnds [k] = false ∧ frameEnds [k, a] = false := ⟨rfl, rfl⟩

/-- R183: a frame of an upward kind within its greatest payload: the delimiter, then kind, address, length, payload and
two check bytes, is judged whole. -/
theorem State.receive_whole (h : s.held = false) (g : (s.port c).reception = .hunting) (noise payload check : List Byte)
    (k a : Byte) (greatest : Nat) (n : 0xA5#8 ∉ noise) (up : upwardGreatest (k >>> 4).toNat = some greatest)
    (le : payload.length ≤ greatest) (small : payload.length < 256) (two : check.length = 2) :
    (noise ++ 0xA5#8 :: k :: a :: byteOfNat payload.length :: (payload ++ check)).foldl
        (fun s b => s.receiveByte c tenth b) s =
      { s with pending := s.pending ++
        (judgeUpward c (k :: a :: byteOfNat payload.length :: (payload ++ check)) (s.byteStart tenth)).toList } := by
  have len : (byteOfNat payload.length).toNat = payload.length := by
    simp [byteOfNat, Nat.mod_eq_of_lt small]
  have key : ∀ r : List Byte, frameEnds (k :: a :: byteOfNat payload.length :: r) = (r.length == payload.length + 2) := by
    intro r
    simp only [frameEnds, up, len]
    rw [show Decidable.decide (greatest < payload.length) = false by simpa using le]
    rfl
  rw [List.foldl_append, s.receive_noise c tenth h g noise n, List.foldl_cons,
    s.receiveByte_delimiter c tenth h g]
  refine s.receive_frame c tenth h g _ [] _ ?_ ?_ (by simp)
  · intro p q np nq e
    rcases p with _ | ⟨x, _ | ⟨y, _ | ⟨z, p⟩⟩⟩
    · exact absurd rfl np
    · rfl
    · rfl
    · have e' := List.cons.inj e
      have e'' := List.cons.inj e'.2
      have e3 := List.cons.inj e''.2
      rw [List.nil_append, ← e'.1, ← e''.1, ← e3.1, key]
      have : payload.length + 2 = p.length + q.length := by
        have := congrArg List.length e3.2
        simp at this
        omega
      have : q.length ≠ 0 := fun z => nq (List.length_eq_zero_iff.1 z)
      simp only [beq_eq_false_iff_ne]
      omega
  · rw [List.nil_append, key, List.length_append, two]
    simp

/-- R183: a frame that ends at its length byte. -/
theorem State.receive_cut (h : s.held = false) (g : (s.port c).reception = .hunting) (noise : List Byte) (k a l : Byte)
    (n : 0xA5#8 ∉ noise) (cut : frameEnds [k, a, l] = true) :
    (noise ++ [0xA5#8, k, a, l]).foldl (fun s b => s.receiveByte c tenth b) s =
      { s with pending := s.pending ++ (judgeUpward c [k, a, l] (s.byteStart tenth)).toList } := by
  rw [List.foldl_append, s.receive_noise c tenth h g noise n, List.foldl_cons,
    s.receiveByte_delimiter c tenth h g]
  refine s.receive_frame c tenth h g _ [] [k, a, l] ?_ cut (by simp)
  intro p q np nq e
  rcases p with _ | ⟨x, _ | ⟨y, _ | ⟨z, p⟩⟩⟩
  · exact absurd rfl np
  · rfl
  · rfl
  · have e' := congrArg List.length e
    have : q.length ≠ 0 := fun z => nq (List.length_eq_zero_iff.1 z)
    simp only [List.length_append, List.length_cons, List.length_nil] at e'
    omega

end Sys2Proof.Machine
end

