-- ==== Sys2Proof/Laws/Shared.lean ====
section
/-! SUPPORT. What the shared operations give: the free orders, the ports, the image, the rounds' currents and values, the
schedule, the broadcasts, the captures and the checks of the Update Engine. -/

namespace Sys2Proof.Machine

variable (s : State)

/-! ### Free orders (entry 3) -/

theorem State.anyOrder_none : s.anyOrder [] = s := rfl

theorem State.anyOrder_one (f : State → State) : s.anyOrder [f] = f { s with free := s.free + 1 } := rfl

/-- Two effects happen in one of the two orders. -/
theorem State.anyOrder_two (f g : State → State) : s.anyOrder [f, g] = g (f { s with free := s.free + 2 }) ∨
    s.anyOrder [f, g] = f (g { s with free := s.free + 2 }) := by
  unfold State.anyOrder
  simp only [shuffle, List.length_nil, Nat.zero_add]
  have h : Config.freeChoice s.free % 2 = 0 ∨ Config.freeChoice s.free % 2 = 1 := by omega
  rcases h with h | h <;> rw [h]
  · left; rfl
  · right; rfl

/-- Several effects happen in some order. -/
theorem State.anyOrder_perm (fs : List (State → State)) : ∃ order : List (State → State), order.Perm fs ∧
    s.anyOrder fs = order.foldl (fun t f => f t) { s with free := s.free + order.length } := by
  refine ⟨_, shuffle_perm s.free fs, ?_⟩
  unfold State.anyOrder
  rw [(shuffle_perm s.free fs).length_eq]

/-- A notice and the openings of its event happen in some order. -/
theorem State.noticeWithOpenings_perm (notice : State → State) (ks : List ChannelId) (closing : Option RoundNumber) :
    ∃ order : List (State → State), order.Perm (notice :: ks.map fun k t => t.openRequest k .sequencer closing) ∧
      s.noticeWithOpenings notice ks closing =
        order.foldl (fun t f => f t) { s with free := s.free + order.length } := s.anyOrder_perm _

/-- What every effect keeps, whatever the order, they keep together. -/
theorem State.anyOrder_keeps {P : State → Prop} (fs : List (State → State)) (h : ∀ f ∈ fs, ∀ u, P u → P (f u))
    (p : P { s with free := s.free + fs.length }) : P (s.anyOrder fs) := by
  obtain ⟨order, perm, e⟩ := s.anyOrder_perm fs
  rw [e, perm.length_eq]
  have hm : ∀ f ∈ order, ∀ u, P u → P (f u) := fun f hf => h f (perm.mem_iff.mp hf)
  generalize ({ s with free := s.free + fs.length } : State) = t at p
  clear e perm
  induction order generalizing t with
  | nil => exact p
  | cons f rest ih => exact ih (fun g hg => hm g (List.mem_cons_of_mem _ hg)) _ (hm f List.mem_cons_self _ p)

/-! ### The ports and the image -/

theorem State.setPort_port (c : Chain) (p : ChainPort) : (s.setPort c p).port c = p := by cases c <;> rfl

theorem State.setPort_setPort (c : Chain) (p q : ChainPort) : (s.setPort c p).setPort c q = s.setPort c q := by
  cases c <;> rfl

theorem State.setPort_port_self (c : Chain) : s.setPort c (s.port c) = s := by cases c <;> rfl

theorem State.unlessHeld_eq {s : State} (f : State → State) (h : s.held = false) : s.unlessHeld f = f s := by
  unfold State.unlessHeld
  rw [h]
  rfl

theorem State.role_of_image (k : ChannelId) {i : Image} (h : s.image = some i) :
    s.role k = some (i.channelProfile k).role := by
  unfold State.role
  rw [h]
  rfl

theorem State.profile_of_image (k : ChannelId) {i : Image} (h : s.image = some i) :
    s.profile k = some (i.channelProfile k) := by
  unfold State.profile
  rw [h]
  rfl

theorem State.shared_of_image {i : Image} (h : s.image = some i) : s.shared = some i.shared := by
  unfold State.shared
  rw [h]
  rfl

theorem State.patrol_of_image {i : Image} (h : s.image = some i) : s.patrol = some i.patrolTable := by
  unfold State.patrol
  rw [h]
  rfl

/-- R104, R131: a channel that stays closed, or goes on to DROPOUT, leaves the supervision window as it is. -/
theorem State.syncWindow_of_closed (k : ChannelId) (h : s.windowFollows) (hc : (s.channel k).state ≠ .opened) (c : Channel)
    (d : Drive) (hd : c.state ≠ .opened) :
    ({ s with channels := s.channels.set k c, drives := s.drives.set k d } : State).syncWindow =
      { s with channels := s.channels.set k c, drives := s.drives.set k d } := by
  have a : s.allOpen = false := by
    cases q : s.allOpen
    · rfl
    · exact absurd ((State.allOpen_iff s).1 q k) hc
  have b : ({ s with channels := s.channels.set k c, drives := s.drives.set k d } : State).allOpen = false := by
    cases q : ({ s with channels := s.channels.set k c, drives := s.drives.set k d } : State).allOpen
    · rfl
    · have := (State.allOpen_iff _).1 q k
      have e : ({ s with channels := s.channels.set k c, drives := s.drives.set k d } : State).channel k = c := by
        cases k <;> rfl
      rw [e] at this
      exact absurd this hd
  have w : s.window.armed = true := by
    have := h
    unfold State.windowFollows at this
    rw [this, a]
    rfl
  unfold State.syncWindow
  rw [b]
  simp [w]

/-! ### Rounds: the record, the current of a part, the values of an entry (R58, R63 to R65) -/

theorem State.record_number {v : State} {n : RoundNumber} {r : RoundRecord} (h : v.record n = some r) : r.number = n := by
  have := List.find?_some h
  simpa using this

theorem State.mapRecord_record {v : State} {n : RoundNumber} {r : RoundRecord} (f : RoundRecord → RoundRecord)
    (g : ∀ x, (f x).number = x.number) (h : v.record n = some r) : (v.mapRecord n f).record n = some (f r) := by
  unfold State.record at h
  unfold State.record State.mapRecord
  dsimp only
  revert h
  induction v.ring with
  | nil => simp
  | cons x rest ih =>
    intro h
    rw [List.map_cons, List.find?_cons]
    rw [List.find?_cons] at h
    by_cases e : (x.number == n) = true
    · rw [e] at h
      rw [if_pos e, g, e]
      simp at h
      rw [h]
    · have e' : (x.number == n) = false := by simpa using e
      rw [e'] at h
      rw [if_neg e, e']
      exact ih h

theorem dropOldestFree_subset (l : List RoundRecord) : ∀ x ∈ dropOldestFree l, x ∈ l := by
  induction l with
  | nil => simp [dropOldestFree]
  | cons a l ih =>
    intro x hx
    unfold dropOldestFree at hx
    split at hx
    · exact List.mem_cons_of_mem _ hx
    · rcases List.mem_cons.1 hx with rfl | hx
      · simp
      · exact List.mem_cons_of_mem _ (ih x hx)

/-- R82, R83: a round that has been given a place is found under its number. -/
theorem State.placeRound_record (v : State) (m : RoundRecord) : (v.placeRound m).record m.number = some m := by
  have found : ∀ t : State, t.record m.number = none → ∀ l, (∀ x ∈ l, x ∈ t.ring) →
      (l ++ [m]).find? (fun r => r.number == m.number) = some m := by
    intro t ht l hl
    rw [List.find?_append]
    have : l.find? (fun r => r.number == m.number) = none := by
      rw [List.find?_eq_none]
      intro x hx
      unfold State.record at ht
      rw [List.find?_eq_none] at ht
      exact ht x (hl x hx)
    rw [this]
    simp
  have part : ∀ t : State, ∀ x ∈ (if 32 ≤ t.ring.length then dropOldestFree t.ring else t.ring), x ∈ t.ring := by
    intro t
    split
    · exact dropOldestFree_subset _
    · exact fun _ h => h
  unfold State.placeRound
  dsimp only
  split
  · refine found (v.takeOut m.number) ?_ _ (part _)
    unfold State.record State.takeOut
    rw [List.find?_eq_none]
    intro x hx
    simp at hx
    simpa using hx.2
  · rename_i h
    exact found v (by simpa using h) _ (part v)

theorem nearestCurrent_none (target : Instant) (delay : Nat) (words : List CurrentSample)
    (h : ∀ x ∈ words, instantDiff (x.arrival - micros delay) target < -250 ∨
      250 < instantDiff (x.arrival - micros delay) target) : nearestCurrent target delay words = none := by
  induction words with
  | nil => rfl
  | cons x r ih =>
    have := h x (by simp)
    unfold nearestCurrent
    dsimp only
    rw [if_neg (by omega), ih (fun y hy => h y (by simp [hy]))]

/-- The current that is chosen is that of a word within 250 µs. -/
theorem nearestCurrent_mem (target : Instant) (delay : Nat) (words : List CurrentSample) (e : CurrentEntry)
    (h : nearestCurrent target delay words = some e) :
    ∃ y ∈ words, -250 ≤ instantDiff (y.arrival - micros delay) target ∧
      instantDiff (y.arrival - micros delay) target ≤ 250 ∧
      e = ⟨y.value, instantDiff (y.arrival - micros delay) target⟩ := by
  induction words with
  | nil => simp [nearestCurrent] at h
  | cons x r ih =>
    unfold nearestCurrent at h
    dsimp only at h
    split at h
    · rename_i hb
      split at h
      · rename_i b hbest
        split at h
        · obtain ⟨y, hy, z⟩ := ih (by rw [hbest]; exact h)
          exact ⟨y, by simp [hy], z⟩
        · exact ⟨x, by simp, hb.1, hb.2, by simpa using h.symm⟩
      · exact ⟨x, by simp, hb.1, hb.2, by simpa using h.symm⟩
    · obtain ⟨y, hy, z⟩ := ih h
      exact ⟨y, by simp [hy], z⟩

/-- R57: going back from the newest word, the span ends at the word that began it. -/
theorem spanBack_whole (l : List CurrentSample) (h : ∀ y ∈ l, y.spanStart = false) : spanBack l = l := by
  induction l with
  | nil => rfl
  | cons x l ih =>
    unfold spanBack
    rw [h x (by simp), ih fun y hy => h y (by simp [hy])]
    simp

theorem spanBack_append (l r : List CurrentSample) (x : CurrentSample) (h : x.spanStart = true)
    (g : ∀ y ∈ l, y.spanStart = false) : spanBack (l ++ x :: r) = l ++ [x] := by
  induction l with
  | nil => simp [spanBack, h]
  | cons y ys ih =>
    rw [List.cons_append, spanBack, if_neg (by simp [g y]), ih (fun z hz => g z (by simp [hz]))]
    rfl

theorem largestOf_mem {l : List Located} {y : Located} (h : largestOf l = some y) : y ∈ l := by
  induction l generalizing y with
  | nil => simp [largestOf] at h
  | cons a b ih =>
    unfold largestOf at h
    split at h
    · rename_i z hz
      split at h
      · simp at h
        rw [← h]
        exact List.mem_cons_of_mem _ (ih hz)
      · simp at h
        simp [h]
    · simp at h
      simp [h]

theorem smallestOf_mem {l : List Located} {y : Located} (h : smallestOf l = some y) : y ∈ l := by
  induction l generalizing y with
  | nil => simp [smallestOf] at h
  | cons a b ih =>
    unfold smallestOf at h
    split at h
    · rename_i z hz
      split at h
      · simp at h
        rw [← h]
        exact List.mem_cons_of_mem _ (ih hz)
      · simp at h
        simp [h]
    · simp at h
      simp [h]

/-- R65: the first of the largest values. -/
theorem largestOf_append (l r : List Located) (x : Located) (h : ∀ v ∈ l, v.value < x.value)
    (g : ∀ v ∈ r, v.value ≤ x.value) : largestOf (l ++ x :: r) = some x := by
  induction l with
  | nil =>
    rw [List.nil_append, largestOf]
    split
    · rename_i y hy
      rw [if_neg]
      have := g y (largestOf_mem hy)
      omega
    · rfl
  | cons a b ih =>
    rw [List.cons_append, largestOf, ih (fun v hv => h v (by simp [hv]))]
    dsimp only
    rw [if_pos (h a (by simp))]

/-- R65: the first of the smallest values. -/
theorem smallestOf_append (l r : List Located) (x : Located) (h : ∀ v ∈ l, x.value < v.value)
    (g : ∀ v ∈ r, x.value ≤ v.value) : smallestOf (l ++ x :: r) = some x := by
  induction l with
  | nil =>
    rw [List.nil_append, smallestOf]
    split
    · rename_i y hy
      rw [if_neg]
      have := g y (smallestOf_mem hy)
      omega
    · rfl
  | cons a b ih =>
    rw [List.cons_append, smallestOf, ih (fun v hv => h v (by simp [hv]))]
    dsimp only
    rw [if_pos (h a (by simp))]

theorem largestOf_exists (l : List Located) (h : l ≠ []) :
    ∃ x ∈ l, largestOf l = some x ∧ ∀ v ∈ l, v.value ≤ x.value := by
  induction l with
  | nil => exact absurd rfl h
  | cons a b ih =>
    cases b with
    | nil => exact ⟨a, by simp, rfl, by simp⟩
    | cons c d =>
      obtain ⟨x, hx, h1, h2⟩ := ih (by simp)
      rw [largestOf, h1]
      dsimp only
      by_cases g : a.value < x.value
      · refine ⟨x, by simp [List.mem_cons.1 hx], by rw [if_pos g], fun v hv => ?_⟩
        rcases List.mem_cons.1 hv with rfl | hv
        · omega
        · exact h2 v hv
      · refine ⟨a, by simp, by rw [if_neg g], fun v hv => ?_⟩
        rcases List.mem_cons.1 hv with rfl | hv
        · omega
        · have := h2 v hv
          omega

theorem smallestOf_exists (l : List Located) (h : l ≠ []) :
    ∃ x ∈ l, smallestOf l = some x ∧ ∀ v ∈ l, x.value ≤ v.value := by
  induction l with
  | nil => exact absurd rfl h
  | cons a b ih =>
    cases b with
    | nil => exact ⟨a, by simp, rfl, by simp⟩
    | cons c d =>
      obtain ⟨x, hx, h1, h2⟩ := ih (by simp)
      rw [smallestOf, h1]
      dsimp only
      by_cases g : x.value < a.value
      · refine ⟨x, by simp [List.mem_cons.1 hx], by rw [if_pos g], fun v hv => ?_⟩
        rcases List.mem_cons.1 hv with rfl | hv
        · omega
        · exact h2 v hv
      · refine ⟨a, by simp, by rw [if_neg g], fun v hv => ?_⟩
        rcases List.mem_cons.1 hv with rfl | hv
        · omega
        · have := h2 v hv
          omega

/-- R64: a covered node delivered nothing. -/
theorem incomplete_iff (e : LimitEntry) (r : RoundRecord) : incomplete e r = true ↔
    ∃ x ∈ coveredReadings e r, x.2.status = .missing ∨ x.2.status = .checkFailed := by
  unfold incomplete
  simp only [List.any_eq_true]
  constructor
  · rintro ⟨x, hx, h⟩
    refine ⟨x, hx, ?_⟩
    unfold Reading.delivered at h
    cases hs : x.2.status <;> simp_all
  · rintro ⟨x, hx, h⟩
    refine ⟨x, hx, ?_⟩
    unfold Reading.delivered
    rcases h with h | h <;> rw [h] <;> rfl

theorem RoundRecord.neverSent_iff (r : RoundRecord) : r.neverSent = true ↔ ∀ p ∈ r.parts, p.state = .stopped := by
  unfold RoundRecord.neverSent
  simp

theorem RoundRecord.settled_iff (r : RoundRecord) : r.settled = true ↔
    ∀ p ∈ r.parts, p.state ≠ .waiting ∧ (p.state = .sent → p.endCause ≠ none) := by
  unfold RoundRecord.settled ChainPart.collecting
  simp [Option.ne_none_iff_isSome, imp_iff_not_or]

theorem RoundRecord.waitsFor_iff (r : RoundRecord) (c : Chain) :
    r.waitsFor c = true ↔ ∃ p, r.part c = some p ∧ p.state = .waiting := by
  unfold RoundRecord.waitsFor
  cases r.part c <;> simp

/-- R21: what the judgement of a record does. -/
theorem State.closeIfSettled_of_record {v : State} {n : RoundNumber} {x : RoundRecord} (h : v.record n = some x) :
    v.closeIfSettled n = if x.closed = false ∧ x.settled = true then (v.closeStages n).afterClose x else v := by
  unfold State.closeIfSettled State.closesNow
  rw [h]
  dsimp only
  by_cases g : x.closed = false ∧ x.settled = true
  · rw [if_pos g, if_pos (by simp [g])]
  · rw [if_neg g, if_neg (by simpa using g)]

/-- R44: what follows the end of a transaction on a DRAINING chain. -/
theorem State.drained_eq (c : Chain) : s.drained c =
    if (s.port c).run = .draining ∧ (s.port c).transaction = none then s.chainStops c .drain else s := by
  unfold State.drained
  simp

/-! ### The schedule (R9) -/

theorem stepStarts_length (start : Instant) (l : List ScheduleStep) : (stepStarts start l).length = l.length := by
  induction l generalizing start with
  | nil => rfl
  | cons x r ih => rw [stepStarts, List.length_cons, ih, List.length_cons]

/-- A step starts after the steps before it. -/
theorem stepStarts_getElem (start : Instant) (l : List ScheduleStep) (k : Nat) :
    (stepStarts start l)[k]? = (l[k]?).map fun x => (x, start + micros (totalDuration (l.take k))) := by
  induction l generalizing start k with
  | nil => simp [stepStarts]
  | cons x r ih =>
    cases k with
    | zero => simp [stepStarts, totalDuration, micros]
    | succ k =>
      rw [stepStarts, List.getElem?_cons_succ, List.getElem?_cons_succ, ih]
      congr 1
      funext y
      simp only [List.take_succ_cons, totalDuration, List.map_cons, List.sum_cons, micros]
      rw [BitVec.ofNat_add]
      congr 1
      rw [BitVec.add_assoc]

/-! ### Broadcasts (R140, R143, R148) -/

theorem chainsOf_eq_filter (n : Nat) : chainsOf n = Chain.all.filter fun c => decide (c ∈ chainsOf n) := by
  unfold chainsOf Chain.all
  by_cases h1 : n = 1
  · subst h1; rfl
  · by_cases h2 : n = 2
    · subst h2; rfl
    · by_cases h3 : n = 3
      · subst h3; rfl
      · simp [h1, h2, h3]

theorem Chain.filter_isEmpty (on : Chain → Bool) :
    (Chain.all.filter on).isEmpty = Decidable.decide (on .A = false ∧ on .B = false) := by
  cases hA : on .A <;> cases hB : on .B <;> simp [Chain.all, hA, hB]

/-- A broadcast joins the internal queue of each chain of the set, and its end is awaited there. -/
theorem State.broadcast_eq (t : State) (o : Order) (on : Chain → Bool) : t.broadcast o (Chain.all.filter on) = { t with
    ports := ⟨{ t.ports.a with internal := t.ports.a.internal ++ if on .A then [o] else [] },
      { t.ports.b with internal := t.ports.b.internal ++ if on .B then [o] else [] }⟩
    sleepWork := { t.sleepWork with
      awaiting := ⟨t.sleepWork.awaiting.a || on .A, t.sleepWork.awaiting.b || on .B⟩ } } := by
  cases hA : on .A <;> cases hB : on .B
  · have : Chain.all.filter on = [] := by simp [Chain.all, hA, hB]
    rw [this]
    simp only [State.broadcast, List.foldl, Bool.or_false, Bool.false_eq_true, if_false, List.append_nil]
  all_goals
    simp [Chain.all, hA, hB, State.broadcast, State.joinInternal, State.mapPort, State.setPort, State.setSleepWork,
      State.port, PerChain.set, PerChain.get]

/-- R50: a pending survey changes the ports and the link alone. -/
theorem State.pendingSurvey_frame (c : Chain) : ∃ p l, s.pendingSurvey c = { s with ports := p, link := l } := by
  unfold State.pendingSurvey
  split
  · unfold State.startSurvey
    dsimp only
    split
    · exact ⟨_, _, rfl⟩
    · exact ⟨_, _, rfl⟩
  · exact ⟨_, _, rfl⟩

/-! ### Captures and openings (R88, R89, R105) -/

/-- A capture request changes the captures, the holder counts and the outbound queue alone. -/
theorem State.requestCapture_frame (c : CaptureCause) (n : Option RoundNumber) :
    ∃ l caps ring, s.requestCapture c n = { s with link := l, captures := caps, ring := ring } := by
  unfold State.requestCapture
  split
  · dsimp only
    unfold State.noticeDone
    split
    · obtain ⟨l, h⟩ := State.notifyAwake_frame (s.addCapture (s.newCapture c n))
        (.captureDone (s.newCapture c n).id (s.newCapture c n).cause (s.newCapture c n).anchor
          (s.newCapture c n).countHeld)
      rw [h]
      exact ⟨_, _, _, rfl⟩
    · exact ⟨s.link, _, _, rfl⟩
  · obtain ⟨l, h⟩ := State.notifyAwake_frame (s.recordRefusal c) (.captureRefused c)
    rw [h]
    exact ⟨_, _, s.ring, rfl⟩

/-- R88: the identifier of a new capture is not 0 and no capture has it. -/
theorem freeId_fresh (l : List Byte) (n : Byte) (fuel : Nat)
    (h : ∃ j < fuel, (n + BitVec.ofNat 8 j) ∉ l ∧ n + BitVec.ofNat 8 j ≠ 0#8) :
    freeId l fuel n ∉ l ∧ freeId l fuel n ≠ 0#8 := by
  induction fuel generalizing n with
  | zero =>
    obtain ⟨j, h, _⟩ := h
    omega
  | succ f ih =>
    obtain ⟨j, h, a, b⟩ := h
    unfold freeId
    split
    · rename_i g
      apply ih
      cases j with
      | zero =>
        simp at a b
        rcases g with g | g
        · exact absurd g a
        · exact absurd g b
      | succ j =>
        refine ⟨j, by omega, ?_⟩
        have e : n + 1#8 + BitVec.ofNat 8 j = n + BitVec.ofNat 8 (j + 1) := by
          rw [BitVec.add_assoc]
          congr 1
          apply BitVec.eq_of_toNat_eq
          simp
          omega
        rw [e]
        exact ⟨a, b⟩
    · rename_i g
      exact ⟨fun h => g (.inl h), fun h => g (.inr h)⟩

/-- R89: the identifier is the first value from the next-id counter on that is not 0 and that no capture has. -/
theorem freeId_first (taken : List Byte) (fuel : Nat) (n : Byte) (j : Nat) (hj : j < fuel)
    (h1 : n + BitVec.ofNat 8 j ∉ taken) (h2 : n + BitVec.ofNat 8 j ≠ 0#8)
    (h3 : ∀ i, i < j → n + BitVec.ofNat 8 i ∈ taken ∨ n + BitVec.ofNat 8 i = 0#8) :
    freeId taken fuel n = n + BitVec.ofNat 8 j := by
  induction fuel generalizing n j with
  | zero => omega
  | succ f ih =>
    unfold freeId
    cases j with
    | zero =>
      simp at h1 h2
      rw [if_neg (by simp [h1, h2])]
      simp
    | succ j =>
      rw [if_pos (by simpa using h3 0 (by omega))]
      have e : ∀ i, n + 1#8 + BitVec.ofNat 8 i = n + BitVec.ofNat 8 (i + 1) := by
        intro i
        rw [BitVec.add_assoc]
        congr 1
        apply BitVec.eq_of_toNat_eq
        simp
        omega
      rw [ih (n + 1#8) j (by omega) (by rw [e]; exact h1) (by rw [e]; exact h2)
        (fun i hi => by rw [e]; exact h3 (i + 1) (by omega)), e]

/-! ### The checks of the Update Engine (R158, R161) -/

/-- Of a record of the right length the first field check that does not hold is reported, by its offset. -/
theorem failingField_of_length (table : Byte) (index : Nat) (r : Record) (h : r.length = recordLength table index) :
    failingField table index r =
      if mayBeEmpty table index && byteAt r 0 == 0 then none
      else (((recordChecks table index r).map fun c => (c.offset, c.holds)).find? fun f => !f.2).map
        fun f => BitVec.ofNat 8 f.1 := by
  unfold failingField
  rw [if_neg (by simpa using h), List.find?_map, Option.map_map]
  rfl

theorem firstIndex_none {α : Type} (p : α → Bool) (l : List α) (h : ∀ x ∈ l, p x = false) : firstIndex p l = none := by
  unfold firstIndex
  rw [if_neg]
  simpa using h

theorem firstIndex_append {α : Type} (p : α → Bool) (before after : List α) (x : α) (h : p x = true)
    (g : ∀ y ∈ before, p y = false) : firstIndex p (before ++ x :: after) = some before.length := by
  unfold firstIndex
  rw [if_pos (by simp [h]), List.findIdx_append, if_neg]
  · simp [List.findIdx_cons, h]
  · have : List.findIdx p before = before.length := by
      rw [List.findIdx_eq_length]
      simpa using g
    omega

/-- No enabled record follows an empty one. -/
theorem enabledAfterEmpty_none (l : List Record) (k : Nat) (seen : Bool)
    (h : ∀ n, n < l.length → emptyMark (l.getD n []) = false →
      seen = false ∧ ∀ m, m < n → emptyMark (l.getD m []) = false) : enabledAfterEmpty k seen l = none := by
  induction l generalizing k seen with
  | nil => rfl
  | cons r rest ih =>
    unfold enabledAfterEmpty
    by_cases e : emptyMark r = true
    · rw [if_pos e]
      apply ih
      intro n hn hx
      have := (h (n + 1) (by simp; omega) (by simpa using hx)).2 0 (by omega)
      simp [e] at this
    · rw [if_neg e]
      have h0 := h 0 (by simp) (by simpa using e)
      rw [if_neg (by simp [h0.1])]
      apply ih
      intro n hn hx
      have := h (n + 1) (by simp; omega) (by simpa using hx)
      refine ⟨this.1, fun m hm => ?_⟩
      have := this.2 (m + 1) (by omega)
      simpa using this

/-- The first enabled record that follows an empty one. -/
theorem enabledAfterEmpty_some (l : List Record) (k : Nat) (seen : Bool) (n : Nat) (hn : n < l.length)
    (hx : emptyMark (l.getD n []) = false) (hs : seen = true ∨ ∃ m, m < n ∧ emptyMark (l.getD m []) = true)
    (hj : ∀ j, j < n → emptyMark (l.getD j []) = true ∨
      (seen = false ∧ ∀ m, m < j → emptyMark (l.getD m []) = false)) : enabledAfterEmpty k seen l = some (k + n) := by
  induction l generalizing k seen n with
  | nil => exact absurd hn (by simp)
  | cons r rest ih =>
    unfold enabledAfterEmpty
    by_cases e : emptyMark r = true
    · rw [if_pos e]
      cases n with
      | zero => simp [e] at hx
      | succ n =>
        rw [ih (k + 1) true n (by simp at hn; omega) (by simpa using hx) (Or.inl rfl)]
        · congr 1; omega
        · intro j hjn
          rcases hj (j + 1) (by omega) with z | ⟨_, z⟩
          · left; simpa using z
          · have := z 0 (by omega)
            simp [e] at this
    · rw [if_neg e]
      cases n with
      | zero =>
        rcases hs with hs | ⟨m, hm, _⟩
        · rw [if_pos hs]; rfl
        · omega
      | succ n =>
        rcases hj 0 (by omega) with z | ⟨z, _⟩
        · exact absurd (by simpa using z) e
        · rw [if_neg (by simp [z]), ih (k + 1) seen n (by simp at hn; omega) (by simpa using hx)]
          · congr 1; omega
          · rcases hs with hs | ⟨m, hm, hx'⟩
            · exact Or.inl hs
            · cases m with
              | zero => exact absurd (by simpa using hx') e
              | succ m => exact Or.inr ⟨m, by omega, by simpa using hx'⟩
          · intro j hjn
            rcases hj (j + 1) (by omega) with z | ⟨z1, z⟩
            · left; simpa using z
            · right
              refine ⟨z1, fun m hm => ?_⟩
              have := z (m + 1) (by omega)
              simpa using this

/-! ### The lines (11.5, R184) -/

theorem wordOf_append (l : List Bool) (b : Bool) :
    wordOf (l ++ [b]) = (wordOf l <<< 1 ||| if b then 1#32 else 0#32) := by
  unfold wordOf
  rw [List.foldl_append]
  rfl

theorem wordOf_getLsbD (l : List Bool) (k : Nat) (h : k < 32) : (wordOf l).getLsbD k = l.reverse.getD k false := by
  induction l using List.reverseRecOn generalizing k with
  | nil => simp [wordOf]
  | append_singleton l b ih =>
    rw [wordOf_append, List.reverse_append, List.reverse_singleton, List.singleton_append]
    cases k with
    | zero => cases b <;> simp
    | succ k =>
      rw [List.getD_cons_succ, ← ih k (by omega)]
      have hk : k < 32 := by omega
      cases b <;> simp [h] <;> rw [BitVec.getLsbD_eq_getElem hk]

/-- 11.5: the word of 32 bits has the first of them as its most significant. -/
theorem eq_wordOf (l : List Bool) (w : BitVec 32) (h : l.length = 32)
    (g : ∀ n, n < 32 → w.getMsbD n = l.getD n false) : w = wordOf l := by
  apply BitVec.eq_of_getLsbD_eq
  intro k hk
  rw [wordOf_getLsbD l k hk]
  have := g (31 - k) (by omega)
  rw [BitVec.getMsbD] at this
  simp only [show 31 - k < 32 by omega, decide_true, Bool.true_and] at this
  rw [show 32 - 1 - (31 - k) = k by omega] at this
  rw [this]
  simp only [List.getD_eq_getElem?_getD]
  rw [List.getElem?_reverse (by omega), h]

/-- R51: a bit under the strobe. -/
theorem State.receiveBit_more (b : Bool) (h : s.held = false) (c : s.pins.csfs = true) (l : s.stream.bits.length < 32) :
    s.receiveBit b = { s with
      stream := { s.stream with bits := s.stream.bits ++ [b] }
      pending := s.pending ++
        if (s.stream.bits ++ [b]).length = 32 then [.currentWord (wordOf (s.stream.bits ++ [b]))] else [] } := by
  unfold State.receiveBit
  rw [State.unlessHeld_eq _ h, if_pos (by simp [c, l])]

/-- R51: bits without the strobe, and those after the 32nd, are ignored. -/
theorem State.receiveBits_ignored (bits : List Bool) (h : s.held = false)
    (l : s.pins.csfs = false ∨ 32 ≤ s.stream.bits.length) : bits.foldl (fun s b => s.receiveBit b) s = s := by
  induction bits with
  | nil => rfl
  | cons b r ih =>
    have : s.receiveBit b = s := by
      unfold State.receiveBit
      rw [State.unlessHeld_eq _ h, if_neg]
      rcases l with l | l
      · simp [l]
      · simp
        intro _
        omega
    rw [List.foldl_cons, this, ih]

/-- R51: fewer than 32 bits gather. -/
theorem State.receiveBits_gather (bits : List Bool) (h : s.held = false) (c : s.pins.csfs = true)
    (l : s.stream.bits.length + bits.length < 32) : bits.foldl (fun s b => s.receiveBit b) s =
      { s with stream := { s.stream with bits := s.stream.bits ++ bits } } := by
  induction bits generalizing s with
  | nil => simp
  | cons b r ih =>
    simp only [List.length_cons] at l
    rw [List.foldl_cons, s.receiveBit_more b h c (by omega), if_neg (by simp; omega)]
    simp only [List.append_nil]
    rw [ih]
    · simp
    · exact h
    · exact c
    · simp
      omega

theorem bytes16_injective {x y : BitVec 16} (h : bytes16 x = bytes16 y) : x = y := by
  unfold bytes16 at h
  have a := (List.cons.inj h).1
  have b := (List.cons.inj (List.cons.inj h).2).1
  bv_omega

theorem State.hsdo_of_low (h : s.pins.reset ≠ .high) (clocked : Nat) : s.hsdo clocked = none := by
  unfold State.hsdo
  rw [if_neg h]

theorem State.downwardFrame_free (c : Chain) (h : (s.port c).transaction = none) : s.downwardFrame c = none := by
  unfold State.downwardFrame
  rw [h]

/-! ### Fault reports (R124) -/

/-- A fault report taken before its own fault action is the report as it stands. -/
theorem State.faultReport_own (s : State) (k : ChannelId) (r : ChangeReason) :
    s.faultReport s.sequencer.state k r = s.sequencerReport k r none := by
  unfold State.faultReport
  split
  · rename_i f h g
    rw [h] at g
    have e : seqFault .tripped (s.role k) r (s.channel k).welded = some f := by
      unfold failureOf at g
      split at g
      · rename_i e; rw [e, ← g]
      · simp at g
    unfold State.sequencerReport; rw [h, e]
  · rfl

/-- A fault report that names no fault in the state before its action is the report as it stands. -/
theorem State.faultReport_of_none (s : State) (before : SeqState) (k : ChannelId) (r : ChangeReason)
    (h : failureOf before (s.role k) r (s.channel k).welded = none) :
    s.faultReport before k r = s.sequencerReport k r none := by
  unfold State.faultReport; rw [h]
  split
  · rename_i g; exact absurd g (by simp)
  · rfl

/-- A fault report that makes the Sequencer FAILED in the state before its action does so in TRIPPED. -/
theorem State.faultReport_tripped (s : State) (before : SeqState) (k : ChannelId) (r : ChangeReason) (f : FaultKind)
    (t : s.sequencer.state = .tripped) (h : failureOf before (s.role k) r (s.channel k).welded = some f) :
    s.faultReport before k r = s.enterFailed (.fault f k) none := by
  unfold State.faultReport; rw [t, h]

end Sys2Proof.Machine
end

