-- ==== Sys2Proof/Laws/Records.lean ====
section
/-! SUPPORT. The tables of an image and the lists that are walked: planned positions, parts of a round, closed channels, free
orders. -/

namespace Sys2Proof.Machine

/-- R151: a code that names no table. -/
theorem recordCount_other (t : Byte) (h : t = 0#8 ∨ 9 < t.toNat) : recordCount t = 0 := by
  revert t; decide

/-- A free order commutes with what is done to each member (entry 3). -/
theorem shuffle_map {α β : Type} (f : α → β) (k : Nat) (l : List α) : shuffle k (l.map f) = (shuffle k l).map f := by
  induction l generalizing k with
  | nil => rfl
  | cons x t ih =>
    cases t with
    | nil => rfl
    | cons y rest =>
      rw [List.map_cons, List.map_cons]
      simp only [shuffle]
      have := ih (k + 1)
      rw [List.map_cons] at this
      rw [this, List.length_map]
      rw [List.map_insertIdx]

theorem ChannelState.isClosed_iff (c : ChannelState) : c.isClosed = true ↔ c = .pullIn ∨ c = .hold := by
    cases c <;> simp [ChannelState.isClosed]

theorem ChannelId.mem_all (k : ChannelId) : k ∈ ChannelId.all := by cases k <;> decide

/-- R26: over an empty Node Table every planned position takes a fresh entry. -/
theorem rebuildTable_nil (plan : List Planned) : rebuildTable [] plan = plan.map NodeEntry.fresh := by
  unfold rebuildTable; simp

/-- R50: a pending survey that may not begin. -/
theorem State.pendingSurvey_none (v : State) (c : Chain) (p : ChainPort) (e : p = v.port c)
    (h : p.surveyPending = false ∨ p.survey ≠ .idle ∨ v.sleep.op ≠ .run ∨ p.run ≠ .running) : v.pendingSurvey c = v := by
  subst e
  unfold State.pendingSurvey State.surveyAllowed State.runs
  rcases h with h | h | h | h <;> simp [h]

/-- The planned positions ascend. -/
theorem planned_ascends (l : List Record) (k : Nat) :
    (((l.zipIdx k).map fun x => readPlanned (x.2 + 1) x.1).reduceOption).Pairwise (fun x y => x.position < y.position) ∧
    ∀ p ∈ ((l.zipIdx k).map fun x => readPlanned (x.2 + 1) x.1).reduceOption, k < p.position := by
  induction l generalizing k with
  | nil => exact ⟨List.Pairwise.nil, by simp⟩
  | cons r rest ih =>
    obtain ⟨i1, i2⟩ := ih (k + 1)
    rw [List.zipIdx_cons, List.map_cons]
    cases h : readPlanned (k + 1) r with
    | none =>
      rw [List.reduceOption_cons_of_none]
      exact ⟨i1, fun p hp => Nat.lt_of_succ_lt (i2 p hp)⟩
    | some q =>
      have hq : q.position = k + 1 := by
        unfold readPlanned at h; split at h
        · exact absurd h (by simp)
        · have := Option.some.inj h; rw [← this]
      rw [List.reduceOption_cons_of_some]
      refine ⟨List.Pairwise.cons (fun p hp => by have := i2 p hp; omega) i1, ?_⟩
      intro p hp
      rcases List.mem_cons.1 hp with rfl | hp
      · omega
      · exact Nat.lt_of_succ_lt (i2 p hp)

/-- The part of a chain is the first that names it. -/
theorem RoundRecord.part_iff (r : RoundRecord) (d : Chain) (p : ChainPart) :
    r.part d = some p ↔ ∃ before after, r.parts = before ++ p :: after ∧ p.chain = d ∧ ∀ q ∈ before, q.chain ≠ d := by
  unfold RoundRecord.part
  rw [List.find?_eq_some_iff_append]
  simp only [beq_iff_eq, Bool.not_eq_true', beq_eq_false_iff_ne]
  constructor
  · rintro ⟨h, a, b, e, g⟩; exact ⟨a, b, e, h, g⟩
  · rintro ⟨a, b, e, h, g⟩; exact ⟨h, a, b, e, g⟩

end Sys2Proof.Machine
end

