-- ==== Sys2Proof/Laws/Wire.lean ====
section
/-! SUPPORT. What the bytes and the bits of the two links say: a word of two bytes, the inbound frames of the Host Link, the
bits of an exchange, the bits of a byte on a chain line, the lists of a SAMPLE SET. -/

namespace Sys2Proof.Machine

/-- The two bytes of a word, put together again. -/
theorem word16_bytes (x : BitVec 16) : word16 ((x >>> 8).truncate 8) (x.truncate 8) = x := by
  unfold word16
  apply BitVec.eq_of_toNat_eq
  rw [BitVec.toNat_append]
  simp [BitVec.toNat_ushiftRight, Nat.shiftRight_eq_div_pow]
  rw [← Nat.shiftLeft_add_eq_or_of_lt (by omega), Nat.shiftLeft_eq]
  have := x.isLt
  omega

theorem wordsOf_bytes (l : List (BitVec 16)) : wordsOf (l.flatMap bytes16) = l := by
  induction l with
  | nil => rfl
  | cons x l ih =>
    rw [List.flatMap_cons]
    show wordsOf (((x >>> 8).truncate 8) :: (x.truncate 8) :: (l.flatMap bytes16)) = _
    rw [wordsOf, word16_bytes, ih]

theorem words_length (l : List (BitVec 16)) : (l.flatMap bytes16).length = 2 * l.length := by
  induction l with
  | nil => rfl
  | cons x l ih => rw [List.flatMap_cons, List.length_append, ih]; simp [bytes16]; omega

/-- What holds of a bad request and of every good one holds of whatever a request is read as (R185). -/
theorem decodeRequest_cases (code tag : Byte) (args : List Byte) (P : Inbound → Prop) (bad : P (.badRequest tag))
    (good : ∀ i, i.isRequest = true → P (.request i)) : P (decodeRequest code tag args) := by
  have range : code.toNat ≤ 22 ∨ 22 < code.toNat := by omega
  unfold decodeRequest
  generalize code.toNat = n at *
  rcases range with h | h
  · match args with
    | [] => interval_cases n <;> first | exact bad | exact good _ rfl
    | [a] => interval_cases n <;> first | exact bad | exact good _ rfl
    | [a, b] =>
      by_cases three : n = 3
      · subst three
        show P (if b = 1#8 then _ else if b = 2#8 then _ else _)
        split
        · exact good _ rfl
        · split
          · exact good _ rfl
          · exact bad
      · interval_cases n <;> first | exact bad | exact good _ rfl | exact absurd rfl three
    | [a, b, c] => interval_cases n <;> first | exact bad | exact good _ rfl
    | [a, b, c, d] => interval_cases n <;> first | exact bad | exact good _ rfl
    | a :: b :: c :: d :: e :: r => interval_cases n <;> first | exact bad | exact good _ rfl
  · obtain ⟨m, rfl⟩ : ∃ m, n = m + 23 := ⟨n - 23, by omega⟩
    exact bad

/-- What the inbound bytes are read as is a request (R176). -/
theorem decodeInbound_isRequest (b : List Byte) (i : Instr) (h : decodeInbound b = .request i) : i.isRequest = true := by
  unfold decodeInbound at h
  split at h
  · exact absurd h (by simp)
  · split at h
    · exact absurd h (by simp)
    · split at h
      · exact absurd h (by simp)
      · split at h
        · dsimp only at h
          split at h
          · exact absurd h (by simp)
          · split at h
            · exact absurd h (by simp)
            · split at h
              · exact absurd h (by simp)
              · unfold decodePayload at h
                split at h
                · split at h
                  · exact decodeRequest_cases _ _ _ (fun x => x = .request i → i.isRequest = true)
                      (fun e => absurd e (by simp)) (fun j g e => by cases e; exact g) h
                  · exact absurd h (by simp)
                · split at h
                  · have := Inbound.request.inj h; subst this; rfl
                  · exact absurd h (by simp)
        · exact absurd h (by simp)

/-- R184: an exchange that begins with a frame whose length and check word are right is read by its payload. -/
theorem decodeInbound_frame (kind : Byte) (payload extra : List Byte)
    (k : kind = 1#8 ∨ kind = 2#8) (n : payload.length ≤ 2043) :
    decodeInbound (linkFrame kind payload ++ extra) = decodePayload kind payload := by
  have len : (BitVec.ofNat 16 payload.length).toNat = payload.length := by
    rw [BitVec.toNat_ofNat]; omega
  have body : linkFrame kind payload ++ extra = kind :: ((BitVec.ofNat 16 payload.length) >>> 8).truncate 8 ::
      (BitVec.ofNat 16 payload.length).truncate 8 :: (payload ++ (bytes16 (crc16 (kind ::
        ((BitVec.ofNat 16 payload.length) >>> 8).truncate 8 :: (BitVec.ofNat 16 payload.length).truncate 8 :: payload)) ++ extra)) := by
    unfold linkFrame; simp [bytes16]
  rw [body, decodeInbound]
  rw [if_neg (by rcases k with rfl | rfl <;> decide), if_neg (by rcases k with rfl | rfl <;> decide)]
  dsimp only
  rw [word16_bytes, len, if_neg (by omega), List.take_left, List.drop_left]
  rw [if_neg (by simp [bytes16]), if_neg]
  simp [bytes16]

/-- The ten bits of a byte are read as that byte (entry 54). -/
theorem byteOfLine_lineBits (b : Byte) : byteOfLine (lineBits b) = some b := by revert b; decide

/-- Bits that are not ten, or that have no start bit or no stop bit, are no byte (entry 54). -/
theorem byteOfLine_none (bits : List Bool) (h : bits.length ≠ 10 ∨ bits.head? = some true ∨ bits.getLast? = some false) :
    byteOfLine bits = none := by
  unfold byteOfLine
  split
  · simp at h
  · rfl

theorem byteOfBits_of (b : Byte) : byteOfBits [b.getMsbD 0, b.getMsbD 1, b.getMsbD 2, b.getMsbD 3, b.getMsbD 4, b.getMsbD 5,
    b.getMsbD 6, b.getMsbD 7] = b := by
  revert b; decide

theorem bytesOfBits_short (l : List Bool) (h : l.length < 8) : bytesOfBits l = [] := by
  unfold bytesOfBits
  split
  · simp at h; omega
  · rfl

/-- R172: the bytes whose bits came the most significant first; a last byte cut short is not among them. -/
theorem bytesOfBits_bits (bytes : List Byte) (extra : List Bool) (h : extra.length < 8) :
    bytesOfBits ((bytes.flatMap fun b => (List.range 8).map fun n => b.getMsbD n) ++ extra) = bytes := by
  induction bytes with
  | nil => exact bytesOfBits_short extra h
  | cons b rest ih =>
    rw [show ((b :: rest).flatMap fun b : Byte => (List.range 8).map fun n => b.getMsbD n) ++ extra =
      b.getMsbD 0 :: b.getMsbD 1 :: b.getMsbD 2 :: b.getMsbD 3 :: b.getMsbD 4 :: b.getMsbD 5 :: b.getMsbD 6 ::
      b.getMsbD 7 :: ((rest.flatMap fun b : Byte => (List.range 8).map fun n => b.getMsbD n) ++ extra) from rfl,
      bytesOfBits, byteOfBits_of, ih]

/-- R173: the bits of the link status byte. -/
theorem statusByte_bits (n : Nat) (a b c d : Bool) (h : n ≤ 4) (x : Byte)
    (e : x = byteOfNat n ||| flagByte [false, false, false, a, b, c, d, false]) :
    (x &&& 7#8).toNat = n ∧ x.getLsbD 3 = a ∧ x.getLsbD 4 = b ∧ x.getLsbD 5 = c ∧ x.getLsbD 6 = d ∧ x.getLsbD 7 = false := by
  subst e
  obtain rfl | rfl | rfl | rfl | rfl : n = 0 ∨ n = 1 ∨ n = 2 ∨ n = 3 ∨ n = 4 := by omega
  all_goals (revert a b c d; decide)

theorem Outbound.isWoke_iff (f : Outbound) : f.isWoke = true ↔ ∃ r, f = .notice (.woke r) := by
  cases f with
  | notice n => cases n <;> simp [Outbound.isWoke]
  | _ => simp [Outbound.isWoke]

end Sys2Proof.Machine
end

