-- ==== Sys2Proof/Tests/Slice0.lean ====
section
/-! SUPPORT. The model's own tests: the checks of WellFormed, the check values of the manual, written frames, small steps, and
for each statement with hypotheses states that meet them. -/

namespace Sys2Proof.Tests

open Sys2Proof Sys2Proof.Machine

set_option Elab.async false

/-! ### WellFormed refuses what the lines cannot carry -/

theorem test_wf_pass : (Instr.pass 0 1 0 7 (List.replicate 2039 0)).wf = true ∧
    (Instr.pass 0 1 0 7 (List.replicate 2040 0)).wf = false := by decide +kernel

theorem test_wf_updateStage : (Instr.updateStage 0 1 0 (List.replicate 2039 0)).wf = true ∧
    (Instr.updateStage 0 1 0 (List.replicate 2040 0)).wf = false := by decide +kernel

theorem test_wf_sampleSet : (Instr.sampleSet .A 1 (List.replicate 44 0)).wf = true ∧
    (Instr.sampleSet .A 1 (List.replicate 45 0)).wf = false := by decide +kernel

theorem test_wf_answer : (Instr.answer .B 3 1 (List.replicate 64 0) ⟨100, 7⟩).wf = true ∧
    (Instr.answer .B 3 1 (List.replicate 65 0) ⟨100, 7⟩).wf = false := by decide +kernel

theorem test_wf_writingEnd : (Instr.writingEnd Image.blank).wf = true ∧ (Instr.writingEnd Image.erased).wf = false := by
  decide +kernel

/-! ### Check values and written frames (R154, R184, 11.2) -/

theorem test_crc16 : crc16 [0x31, 0x32, 0x33, 0x34, 0x35, 0x36, 0x37, 0x38, 0x39] = 0x29B1#16 := by decide +kernel

theorem test_crc32 : crc32 [0x31, 0x32, 0x33, 0x34, 0x35, 0x36, 0x37, 0x38, 0x39] = 0xCBF43926#32 := by decide +kernel

/-- CONNECT with tag 05h. -/
def connectFrame : List Byte := [0x01, 0x00, 0x02, 0x0A, 0x05] ++ bytes16 (crc16 [0x01, 0x00, 0x02, 0x0A, 0x05])

theorem test_decode_connect : decodeInbound connectFrame = .request (.connect 0x05#8) := by decide +kernel

theorem test_decode_readRound : decodeInbound ([0x01, 0x00, 0x04, 0x06, 0x07, 0x12, 0x34] ++
    bytes16 (crc16 [0x01, 0x00, 0x04, 0x06, 0x07, 0x12, 0x34])) = .request (.readRound 0x07#8 0x1234#16) := by
  decide +kernel

theorem test_decode_pass : decodeInbound ([0x02, 0x00, 0x05, 0x01, 0x10, 0x20, 0x09, 0xAA] ++
    bytes16 (crc16 [0x02, 0x00, 0x05, 0x01, 0x10, 0x20, 0x09, 0xAA])) =
    .request (.pass 0x01#8 0x10#8 0x20#8 0x09#8 [0xAA#8]) := by decide +kernel

theorem test_decode_none : decodeInbound [] = .none ∧ decodeInbound [0x00, 0x01] = .none := by decide +kernel

theorem test_decode_failed : decodeInbound [0x01, 0x00, 0x02, 0x0A] = .failed ∧
    decodeInbound ([0x01, 0x00, 0x02, 0x0A, 0x05] ++ bytes16 (~~~crc16 [0x01, 0x00, 0x02, 0x0A, 0x05])) = .failed := by
  decide +kernel

theorem test_decode_unknown : decodeInbound ([0x01, 0x00, 0x02, 0x20, 0x05] ++
    bytes16 (crc16 [0x01, 0x00, 0x02, 0x20, 0x05])) = .badRequest 0x05#8 := by decide +kernel

/-! ### States to start from -/

/-- A working image: one TRIGGER step of 1 ms on chain A, one node there with one cell, the roles NEG, PRE, POS and AUX on K1
to K4, one pre round and one post round, action 0 that opens K1 with every flag set for a tamper event, and WAKE1 watched for a rise, WAKE2 in pulses. -/
def image : Image :=
  { Image.blank with
    schedule := [0x02, 0x00, 0x0A, 0x01, 0x01, 0x01] :: List.replicate 15 [0, 0, 0, 0, 0, 0]
    nodePlan := [0x01, 0x01, 0x00] :: List.replicate 31 [0, 0, 0] ++ [[0x02, 0xFF], [0x02, 0xFF]]
    limit := [0x01, 0x04, 0x01, 0x01, 0x01, 0x01, 0x01, 0, 0, 0, 0, 0, 0, 0, 100, 0x01, 0x00, 0x01] ::
      List.replicate 63 (List.replicate 18 0)
    contactor :=
      [[0x01, 0x00, 0x14, 0x0A, 0x01, 0x00, 0x32, 0x0A, 0x00], [0x02, 0x00, 0x14, 0x0A, 0x01, 0x00, 0x32, 0x0A, 0x00],
        [0x03, 0x00, 0x14, 0x0A, 0x01, 0x00, 0x32, 0x0A, 0x00], [0x04, 0x00, 0x14, 0x0A, 0x01, 0x00, 0x32, 0x0A, 0x00],
        [0x00, 0x00, 0x64, 0x01, 0xFF, 0xFF, 0xFF, 0x00, 0xFF, 0x00, 0x32, 0x00, 0x64, 0x00, 0x00, 0x64, 0x02, 0x00,
          0x0A, 0x00, 0x14, 0x02, 0xFF]]
    action := [0x01, 0x07] :: [0x00, 0x00] :: [0x00, 0x06] :: List.replicate 13 [0, 0]
    options := [[0x00, 0x00]]
    capture := [[0x01, 0x01]]
    patrol := [[0x00, 0x01, 0x01, 0x01, 0x01, 0x01, 0x01, 0x01, 0x02, 0x00, 0x03, 0x01, 0x01, 0x00, 0x01, 0x00, 0x01,
      0x01, 0x01]] }

theorem test_image_wf : image.wf = true ∧ image.steps.length = 1 ∧ image.plan .A = [⟨1, 1, 0⟩] := by decide +kernel

/-- Start-up is over, the link is OPEN and nothing is configured. -/
def opened : State := { State.reset with startup := none, link := { State.reset.link with state := .opened } }

/-- The bridge is RUN with `image`, its cursor RUNNING, the stream LIVE and no settle running. -/
def run : State :=
  { opened with
    working := some ⟨image, 1#32, .A⟩
    sleep := { opened.sleep with op := .run }
    cursor := ⟨.running, 0, 0#32, 0#32⟩
    limits := freshLimits
    ports := ⟨{ ChainPort.reset with table := [NodeEntry.fresh ⟨1, 1, 0⟩] }, .reset⟩
    stream := ⟨[⟨0#24, 0#8, 0#32, true, true⟩], .live, some 1000#32, []⟩
    channels := .four { Channel.reset false with settleExpiry := none } }

/-- The conditions of `linkReady` rest on the link and the RESET# pin alone. -/
theorem ready_of (s : State) (p : s.pins.reset = .high) (l : s.link = opened.link) : s.linkReady := by
  refine ⟨?_, ?_, ?_⟩
  · unfold State.held; rw [p]; rfl
  · rw [l]; rfl
  · rw [l]; decide +kernel

theorem test_opened_ready : opened.linkReady := ready_of _ rfl rfl
theorem test_run_ready : run.linkReady := ready_of _ rfl rfl

/-- `run` with one channel changed. -/
def withChannel (k : ChannelId) (c : Channel) (armed : Bool) : State :=
  { run with channels := run.channels.set k c, window := if armed then ⟨true, some 0#32, true, some 20000#32, none, 0⟩ else run.window }

def closedIn (x : ChannelState) (feedback : Bool) : Channel :=
  { run.channel .K1 with state := x, phaseExpiry := some 0#32, rawClosed := feedback, debouncedClosed := feedback }

/-- K1 in PULL_IN with its feedback open, the window armed. -/
def pulling : State := withChannel .K1 (closedIn .pullIn false) true
/-- K1 in HOLD. -/
def holding : State := { withChannel .K1 (closedIn .hold true) true with
  drives := run.drives.set .K1 ⟨true, some ⟨0#32, 50, 5⟩⟩ }

/-- A round of one part, on chain A. -/
def round (state : PartState) (ended : Option EndCause) (closed : Bool) : RoundRecord :=
  ⟨1#16, .step 0, .cells, true, 1#32, 0#32, [⟨.A, state, some 0#32, some 0#32, ended, [⟨1, .missing, [], [], false, false⟩], none⟩],
    [], closed, 0, false⟩

/-- Chain A collects round 1. -/
def collecting : State :=
  { run with
    ring := [round .sent none false]
    ports := ⟨{ run.ports.a with transaction := some .trigger }, run.ports.b⟩ }

def capture : Capture :=
  { run.newCapture .host none with id := 9#8, held := [⟨1#16, .pre, false⟩, ⟨2#16, .pre, true⟩] }

/-- One capture that holds the closed round 1. -/
def captured : State :=
  { run with ring := [{ round .sent (some .complete) true with holders := 1 }], captures := ⟨[capture], 10#8, none⟩ }

/-! ### One step of each shape -/

theorem test_tick : step State.reset = .next { State.reset with time := 1#32, sleep := State.reset.sleep } := by
  rfl

theorem test_step_command : step { opened with pending := [.resetLow] } =
    .next { opened with pins := { opened.pins with reset := .low 0 } } := by rfl

theorem test_status : exec (.status 1 0) opened = .next (opened.answered 1 .badArgument .none) := by rfl

theorem test_connect_unconfigured : exec (.connect 5) opened = .next (opened.answered 5 .refusedState (.reason .state)) := by
  rfl

/-- 6.9: a contactor that is closed in good order pulls in. -/
theorem test_connect_run : ∃ t, exec (.connect 5) run = .next t ∧ t.sequencer.state = .negClosing ∧
    (t.channel .K1).state = .pullIn ∧ t.window.armed = true ∧ t.kdr .K1 = true := ⟨_, rfl, by decide +kernel⟩

theorem test_sampleSet : ∃ t, exec (.sampleSet .A 1 [0x01, 0x00, 0x01, 0x00, 0x0C, 0x80]) collecting = .next t ∧
    (t.ring.map fun r => r.closed) = [true] := ⟨_, rfl, by decide +kernel⟩

theorem test_word : ∃ t, exec (.currentWord 0x00000105#32) run = .next t ∧
    t.stream.history.map CurrentSample.gap = [true, true] ∧ t.stream.state = .live := ⟨_, rfl, by decide +kernel⟩

/-! ### States that meet the hypotheses of the statements -/

theorem test_meets_EmptyQueueTicks : (opened.pending = [] ∧ opened.held = false) ∧
    (let s : State := { opened with pins := { opened.pins with reset := .held } }; s.pending = [] ∧ s.held = true) := by
  decide +kernel

theorem test_meets_invariants : run.windowFollows ∧ run.idleIsOpen ∧ run.drivesFollow ∧ run.updateSound ∧
    run.queueBounded ∧ run.historyBounded ∧ run.capturesBounded ∧ run.ringDistinct ∧ run.inhibit.Nodup ∧
    ∃ t, step run = .next t := by
  refine ⟨by unfold State.windowFollows; decide +kernel, fun _ k => ?_, fun k => ?_, ⟨rfl, rfl⟩,
    ⟨by decide +kernel, by decide +kernel⟩, by unfold State.historyBounded; decide +kernel,
    by unfold State.capturesBounded; decide +kernel, List.nodup_nil, List.nodup_nil, _, rfl⟩
  · cases k <;> rfl
  · cases k <;> rfl

theorem test_meets_NoChannelClosesWhileInhibited : let s : State := { run with inhibit := [.tamper] }
    s.inhibit ≠ [] ∧ (s.channel .K2).state = .opened ∧ ∃ t, step s = .next t := ⟨by decide, rfl, _, rfl⟩

theorem test_meets_UpdateStaysSound : let s : State := { run with
      update := { run.update with state := .verifying, stagedEpoch := some 5#32 } }
    s.updateSound ∧ ∃ t, step s = .next t := ⟨⟨rfl, 5#32, rfl, by decide +kernel⟩, _, rfl⟩

theorem test_meets_ReceivedFramesAreRead : (Instr.pass 0 1 0 7 (List.replicate 2039 0)).wf = true ∧
    (encodeInbound (.pass 0 1 0 7 (List.replicate 2039 0))).isSome = true ∧
    (Instr.supervise 0xFF 0xFF).wf = true ∧ encodeInbound (.connect 5) = some connectFrame := by decide +kernel

/-- A port that hunts, noise without a delimiter, and kinds with the lengths that end a frame early or at its check word. -/
theorem test_meets_ReceivedFramesAreRead_upward : opened.held = false ∧ (opened.port .A).reception = .hunting ∧
    0xA5#8 ∉ [0x00#8, 0xA4#8, 0xFF#8] ∧ (List.replicate 64 (0xA5 : Byte)).length ≤ 64 ∧
    upwardGreatest ((0x95 : Byte) >>> 4).toNat = some 44 ∧ 44 < (45 : Byte).toNat ∧
    upwardGreatest ((0x80 : Byte) >>> 4).toNat = some 64 ∧ 64 < (65 : Byte).toNat ∧
    upwardGreatest ((0x10 : Byte) >>> 4).toNat = none ∧
    ~~~crc16 [0x80, 0x01, 0x00] ≠ crc16 ((0x80 : Byte) :: 0x01 :: byteOfNat ([] : List Byte).length :: []) := by
  decide +kernel

/-- Noise and one ALERT of position 1 with code 02h, byte by byte. -/
theorem test_receive_alert : (([0x00, 0xA5, 0xA0, 0x01, 0x01, 0x02] ++ bytes16 (crc16 [0xA0, 0x01, 0x01, 0x02])).foldl
    (fun (s : State) b => s.receiveByte .A 4 b) opened).pending = [.alert .A 1 2] := by decide +kernel

theorem test_meets_FramesAreRefusedOrDiscarded :
    (Outbound.isAnswer (.reply 0 .done .none) = true ∧ Outbound.isAnswer (.notice (.windowClosed none)) = false) ∧
    ((Instr.connect 5).isRequest = true ∧ opened.held = false) ∧
    (let s : State := { opened with link := { opened.link with owed := 4 } }; s.link.state = .opened ∧ 4 ≤ s.link.owed) ∧
    State.reset.link.state = .shut := by decide +kernel

/-- An exchange in which one frame that takes 7 bytes waits. -/
def live (f : Outbound) (final : Bool) : Exchange := ⟨.live, 0x04#8, some ⟨f, final⟩, [], false⟩

def exchanging (e : Exchange) : State :=
  { opened with link := { opened.link with exchange := some e, queue := e.frame.toList, owed := 1 } }

theorem test_meets_ExchangeBegins : opened.link.exchange = none ∧ opened.link.state ≠ .shut ∧
    State.reset.link.exchange = none ∧ State.reset.link.state = .shut ∧ State.reset.sleep.op = .unconfigured ∧
    (let s : State := { State.reset with sleep := { State.reset.sleep with op := .waking } }; s.link.state = .shut) ∧
    (let s : State := { State.reset with link := .reset true };
      s.pins.reset = .high ∧ s.link.exchange = some ⟨.shut, 0xFF#8, none, [], false⟩ ∧ s.hsdo 2 = some [0xFF, 0xFF]) ∧
    (let s : State := { State.reset with sleep := { State.reset.sleep with op := .asleep } };
      s.link.state = .shut ∧ s.sleep.op = .asleep) := by decide +kernel

theorem test_meets_ExchangeEndSettlesHead : let e := live (.reply 5 .done .none) false
    (exchanging e).link.exchange = some e ∧ e.kind = .live ∧ decodeInbound (List.replicate 8 0) = .none ∧
      e.whole (List.replicate 8 (0 : Byte)).length = true ∧ decodeInbound (List.replicate 7 0) = .none ∧
      e.whole (List.replicate 7 (0 : Byte)).length = false := by decide +kernel

theorem test_meets_ExchangeEndJudgesInbound : let e := live (.reply 5 .done .none) false
    (e.clockedFinal connectFrame.length = false ∧ decodeInbound connectFrame = .request (.connect 5)) ∧
    (let s := (({ exchanging e with link := { (exchanging e).link with exchange := none } } : State).settleExchange e
        connectFrame.length); s.held = false ∧ s.link.state = .opened ∧ s.link.owed < 4) ∧
    (e.whole [(0x01 : Byte), 0x00].length = false ∧ decodeInbound [0x01, 0x00] = .failed) ∧
    (let b : List Byte := [0x01, 0x00, 0x02, 0x20, 0x05] ++ bytes16 (crc16 [0x01, 0x00, 0x02, 0x20, 0x05])
     let f : Exchange := live (.roundReport ⟨1, .wake, .cells, true, 1, 0, [], [], true, 0, false⟩) false
     f.whole b.length = false ∧ decodeInbound b = .badRequest 5 ∧ (exchanging f).link.exchange = some f) ∧
    (let f : Exchange := ⟨.closing, 0x04#8, none, [], false⟩
     let s : State := { exchanging f with link := { (exchanging f).link with state := .shut } }
     s.link.exchange = some f ∧ s.link.state = .shut ∧ (exchanging f).link.state ≠ .shut) ∧
    (exchanging ⟨.shut, 0xFF#8, none, [], false⟩).link.exchange = some ⟨.shut, 0xFF#8, none, [], false⟩ ∧
    (let f := live (.reply 5 .done .none) true
     let s : State := { exchanging f with link := { (exchanging f).link with state := .closing } }
     s.link.exchange = some f ∧ f.whole (List.replicate 8 (0 : Byte)).length = true ∧ s.link.state = .closing) := by
  decide +kernel

theorem test_meets_StatusAnswers : opened.linkReady ∧
    (∀ code : Byte, code = 9#8 → ∃ x, opened.taken.statusSection code = some x) ∧
    (∃ x, opened.taken.statusSection 1#8 = some x) := ⟨test_opened_ready, fun _ h => h ▸ ⟨_, rfl⟩, _, rfl⟩

theorem test_meets_BridgeResetAnswers : opened.linkReady ∧ (opened.allOpen = true ∧ opened.sequencer.state = .idle) ∧
    ¬(holding.allOpen = true ∧ holding.sequencer.state = .idle) ∧
    (let s : State := { opened with link := { opened.link with state := .resetting, resetExpiry := some 0#32 } }
     s.held = false ∧ s.link.state = .resetting ∧ reached 0#32 s.time = true) ∧
    (let e := live (.reply 5 .done .none) true
     let s : State := { exchanging e with link := { (exchanging e).link with state := .resetting } }
     s.link.exchange = some e ∧ e.kind = .live ∧ e.frame = some ⟨.reply 5 .done .none, true⟩ ∧ s.link.state = .resetting ∧
      e.whole (List.replicate 8 (0 : Byte)).length = true ∧ e.whole (List.replicate 7 (0 : Byte)).length = false) :=
  ⟨test_opened_ready, by decide +kernel⟩

theorem test_meets_EndOfEventFrame : (∀ c, collecting.runs c = false ∨ (collecting.port c).transaction ≠ none ∨ c = .B) ∧
    (let s : State := { opened with ports := .both { ChainPort.reset with run := .stopped } };
      s.runs .A = false ∧ s.runs .B = false ∧ s.cursor.state ≠ .stopping ∧ s.sleep.op ≠ .entering) := by
  refine ⟨fun c => ?_, by decide +kernel⟩
  cases c <;> decide +kernel

theorem test_meets_PassAnswers : run.linkReady ∧ chainOf 0 = some .A ∧ run.node .A 1 ≠ none ∧
    (run.working ≠ none ∧ run.node .A 16 = none) ∧ opened.working = none ∧ (run.port .A).run = .running ∧
    (1 < (2 : Byte).toNat ∧ 0xF0 ≤ (0xF0 : Byte).toNat ∧ (0xEF : Byte).toNat < 0xF0 ∧ 16 < (17 : Byte).toNat) :=
  ⟨test_run_ready, by decide +kernel⟩

/-- A chain of `run` in a run state. -/
def stopping (x : ChainRun) : State := { run with ports := .both { run.ports.a with run := x } }

theorem test_meets_ChainStopAnswers : (stopping .draining).linkReady ∧ chainOf 2 = none ∧ chainOf 1 = some .B ∧
    ((stopping .draining).port .B).run = .draining ∧ ((stopping .stopped).port .A).run = .stopped ∧
    ((run.port .A).run = .running ∧ (run.port .A).transaction = none ∧ (run.port .A).internal = [] ∧
      (run.port .A).forward = [] ∧ run.claimNumber .A = none ∧ (run.port .A).survey = .idle) :=
  ⟨ready_of _ rfl rfl, by decide +kernel⟩

theorem test_meets_ChainStartAnswers : (stopping .stopped).linkReady ∧ ((stopping .stopped).port .B).run = .stopped ∧
    ((stopping .draining).port .A).run = .draining := ⟨ready_of _ rfl rfl, by decide +kernel⟩

theorem test_meets_SurveyAnswers : run.linkReady ∧ opened.sleep.op = .unconfigured ∧ run.sleep.op ≠ .unconfigured ∧
    ((run.port .A).run = .running ∧ (run.port .A).survey = .idle ∧ (run.port .A).table ≠ []) ∧
    ((run.port .B).table = [] ∧ (run.port .B).surveyPending = false) ∧
    (let p := { run.ports.b with surveyPending := true }; p.table = [] ∧ p.surveyPending = true ∧ run.sleep.op = .run) :=
  ⟨test_run_ready, by decide +kernel⟩

theorem test_meets_ReadRoundAnswers : captured.linkReady ∧
    (captured.record 1#16).map RoundRecord.closed = some true ∧ (collecting.record 1#16).map RoundRecord.closed = some false ∧
    run.record 1#16 = none := ⟨ready_of _ rfl rfl, by decide +kernel⟩

theorem test_meets_CaptureNowAnswers : captured.linkReady ∧ captured.captures.list.length < 3 ∧
    (let s : State := { captured with captures := ⟨[capture, capture, capture], 1#8, none⟩ };
      3 ≤ s.captures.list.length) := ⟨ready_of _ rfl rfl, by decide +kernel⟩

theorem test_meets_ReadCaptureAnswers : captured.linkReady ∧ captured.captureWith 9 = some capture ∧
    run.captureWith 9 = none ∧ (7 < (8 : Byte).toNat ∧ (7 : Byte).toNat ≤ 7) ∧
    (32 * (0 : Byte).toNat < capture.samples.length ∧ capture.samples.length ≤ 32 * (1 : Byte).toNat) ∧
    (capture.held[0]? = some ⟨1#16, .pre, false⟩ ∧ (captured.record 1#16).isSome = true) ∧
    capture.held[1]? = some ⟨2#16, .pre, true⟩ ∧ capture.held[7]? = none := ⟨ready_of _ rfl rfl, by decide +kernel⟩

/-- R94, R53: three words in the snapshot, the third the newest. -/
theorem test_capture_header : let word : Byte → CurrentSample := fun n => ⟨7#24, n, 0#32, false, false⟩
    let h := { capture with samples := [word 1, word 2, word 3] }.header
    h.entries = 3 ∧ h.newest = some (word 3) ∧ h.held = capture.held ∧ h.id = 9#8 := by decide +kernel

theorem test_meets_ReleaseCaptureAnswers : captured.linkReady ∧ captured.captureWith 9 = some capture ∧
    ∀ c ∈ captured.captures.list, c.id ≠ 8#8 := ⟨ready_of _ rfl rfl, by decide +kernel⟩

/-- Round 1 waits for chain A. -/
def waiting (step : RoundStep) : State := { run with
  time := 20000#32, pendingRound := some { round .waiting none false with step := step } }

theorem test_meets_StepExpires :
    (let s : State := { run with time := 1000#32 };
      s.held = false ∧ reached s.stepEnd s.time = true ∧ s.claimWaits .A = false ∧ s.claimWaits .B = false ∧
      s.cursor.state = .running ∧ s.steps.length ≤ s.cursor.step + 1) ∧
    (let s : State := { waiting (.step 0) with cursor := ⟨.stopping, 0, 0#32, 0#32⟩ };
      reached s.stepEnd s.time = true ∧ s.claimWaits .A = true ∧
      ((s.withdrawClaim .A .missed).withdrawClaim .B .missed).cursor = s.cursor) ∧
    (run.steps[0]?.map ScheduleStep.trigger = some true ∧ run.applyAllowed = true ∧ collecting.applyAllowed = false) ∧
    ((stopping .stopped).port .A).run ≠ .running ∧ (collecting.port .A).transaction ≠ none := by decide +kernel

theorem test_meets_SampleSetsFillEntries : collecting.held = false ∧ run.collectingRound .A = none ∧
    (collecting.collectingRound .A = some (round .sent none false)) ∧
    ((round .sent none false).part .A).isSome = true ∧
    (readSampleSet [0x01, 0x00, 0x01, 0x00, 0x0C, 0x80]).roundLow = (round .sent none false).number.truncate 8 ∧
    (readSampleSet [0x01, 0x00, 0x01, 0x00, 0x0C, 0x80]).lists = some ([0x0C80#16], []) ∧
    (readSampleSet [0x01, 0x00, 0x01, 0x00, 0x0C]).lists = none ∧
    (readSampleSet [0x01, 0x00, 0x02, 0x00, 0x0C, 0x80, 0x0C, 0x81]).lists = some ([0x0C80#16, 0x0C81#16], []) ∧
    (collecting.node .A 1).map NodeEntry.cells = some 1 := by decide +kernel

theorem test_meets_CollectionsEnd :
    (let s : State := { collecting with time := 1000#32 };
      s.held = false ∧ s.collectingRound .A = some (round .sent none false) ∧
      reached (0#32 + micros (s.windowOf .A)) s.time = true) ∧
    (let r := { round .sent none false with parts := [⟨.B, .sent, some 0#32, some 0#32, none, [], none⟩] }
     let s : State := { collecting with time := 40#32, ring := [r] };
      s.collectingRound .B = some r ∧ reached (0#32 + 40#32) s.time = true) ∧
    (let s := waiting .wake
     let r := { round .waiting none false with step := .wake }
     s.pendingRound = some r ∧ r.waitsFor .A = true ∧ reached (r.planned + micros (s.windowOf .A)) s.time = true ∧
      (r.mapPart .A fun p => { p with state := .missed }).settled = true) ∧
    (let r := { round .waiting none false with
      step := .patrol, parts := [⟨.A, .waiting, none, none, none, [], none⟩, ⟨.B, .waiting, none, none, none, [], none⟩] }
     r.waitsFor .A = true ∧ (r.mapPart .A fun p => { p with state := .missed }).settled = false ∧
      ∀ x ∈ (waiting .patrol).ring, x.number = r.number → x.closed = true) := by decide +kernel

/-- A transaction in flight on chain A of `run`, at 10 ms. -/
def flying (x : Transaction) : State := { run with
  time := 10000#32, ports := ⟨{ run.ports.a with transaction := some x, kept := [⟨2#4, 1, 7#8⟩] }, run.ports.b⟩ }

theorem test_meets_OrdersEnd :
    (let o : Order := ⟨1, 0x20, [], .pass 7#8⟩
     ((flying (.order o 3#4 35#32 85#32)).port .A).transaction = some (.order o 3#4 35#32 85#32) ∧
      (1 : Byte).toNat = o.position ∧ reached 85#32 (flying (.order o 3#4 35#32 85#32)).time = true) ∧
    ((Order.echo 1).owner = .echo ∧ (Order.setHoldoff 1 0x00C8#16).owner = .setHoldoff 0x00C8#16) ∧
    (((flying (.broadcast .rest 135#32)).port .A).transaction = some (.broadcast .rest 135#32) ∧ Order.rest.owner = .rest ∧
      Order.rouse.owner = .rouse ∧ reached 135#32 (flying (.broadcast .rest 135#32)).time = true) ∧
    (let s : State := { run with ports := ⟨{ run.ports.a with kept := [⟨2#4, 1, 7#8⟩] }, run.ports.b⟩ }
     (s.port .A).transaction = none ∧
      ((s.port .A).kept.find? fun k => k.tag == 2#4 && k.position == (1 : Byte).toNat) = some ⟨2#4, 1, 7#8⟩ ∧
      ∀ k ∈ (s.port .A).kept, k.tag ≠ 3#4 ∨ k.position ≠ (1 : Byte).toNat) := by decide +kernel

theorem test_meets_SurveySteps : run.runs .A = true ∧ latencyOf 40 ≤ run.target * 10 ∧
    (run.port .A).table.find? (fun e => decide (0 < e.position)) = some (NodeEntry.fresh ⟨1, 1, 0⟩) := by decide +kernel

/-- R49: an ANSWER that starts before its ECHO has ended, and one that starts 4.1 µs after it, have no latency; one 4.2 µs after has. -/
theorem test_early_answer_has_no_latency : latencyOf (roundTrip 35#32 ⟨30#32, 5⟩) = 0 ∧
    latencyOf (roundTrip 35#32 ⟨39#32, 1⟩) = 0 ∧ latencyOf (roundTrip 35#32 ⟨39#32, 2⟩) = 1 := by decide +kernel

/-- `run` in a sleep state with the link SHUT. -/
def asleep (op : OpState) (phase : Option Phase) : State :=
  { run with
    sleep := { run.sleep with op := op, phase := phase, patrolTimer := some ⟨1000000#32, 0⟩ }
    sleepWork := { run.sleepWork with phaseExpiry := some 0#32 }
    link := State.reset.link }

theorem test_meets_AlertsAreTaken : run.held = false ∧ run.sleep.op = .run ∧ (asleep .asleep none).sleep.op = .asleep ∧
    (asleep .asleep none).link.state = .shut ∧ (asleep .asleep none).chainAlertEnabled = true ∧
    ((asleep .entering none).sleep.op ≠ .asleep ∧ (asleep .entering none).resting .A = false) := by decide +kernel

theorem test_meets_RoundsCountNodes : run.image = some image ∧
    (run.node .A 1 = some (NodeEntry.fresh ⟨1, 1, 0⟩)) ∧
    (min ((NodeEntry.fresh ⟨1, 1, 0⟩).missCount + 1) 15 < image.nodeLossLimit .A ∧ image.nodeLossLimit .A ≤ min (1 + 1) 15) := by
  decide +kernel

theorem test_meets_ArbiterDecides :
    (let s : State := { opened with ports :=
        ⟨{ ChainPort.reset with internal := [.rest], forward := [⟨1, 0x20, [], .pass 7#8⟩] }, .reset⟩ }
     (s.port .A).run = .running ∧ (s.port .A).transaction = none ∧ s.claimWaits .A = false ∧ s.nextPlanned .A = none) ∧
    (waiting (.step 0)).claimWaits .A = true ∧ (run.nextPlanned .A).isSome = true := by decide +kernel

theorem test_meets_CurrentStreamFollowsWords : run.held = false ∧ run.sleep.op = .run ∧ run.stream.state = .live ∧
    (run.stream.history.getLast?.map fun x => decide (1#8 = x.sequence + 1#8)) = some true ∧
    (asleep .asleep none).sleep.op = .asleep ∧ run.judgesWords = true ∧ opened.judgesWords = false ∧
    (let s : State := { holding with time := 1000#32 };
      s.stream.lossExpiry = some 1000#32 ∧ reached 1000#32 s.time = true ∧ s.allOpen = false ∧ s.image = some image) ∧
    run.allOpen = true := by decide +kernel

theorem test_meets_LimitsAreJudged : (image.limitEntry 0).map LimitEntry.quantity = some .current ∧
    run.limits[0]? = some .normal ∧ runAfter .normal 0 1 .violate = (.tripped, 0, some .trip) ∧
    runAfter .tripped 0 1 .within = (.normal, 0, some .release) ∧ runAfter .normal 0 2 .violate = (.normal, 1, none) := by
  decide +kernel

theorem test_meets_ChannelPhasesEnd : pulling.held = false ∧ pulling.image = some image ∧
    (pulling.channel .K1).state = .pullIn ∧ (pulling.channel .K1).debouncedClosed = false ∧
    pulling.window.armed = !pulling.allOpen ∧
    (let s := withChannel .K1 (closedIn .dropout true) true
     (s.channel .K1).state = .dropout ∧ reached 0#32 s.time = true ∧ (s.channel .K1).debouncedClosed = true ∧
      (s.channel .K1).welded = false) ∧
    (let s : State := { holding with time := 5#32 }
     (s.channel .K1).state = .hold ∧ reached (0#32 + micros 50) s.time = false ∧ (s.drives.get .K1).on = true ∧
      reached (0#32 + micros 5) s.time = true) ∧
    reached (0#32 + micros 50) 50#32 = true := by decide +kernel

theorem test_meets_ActionsFire : holding.image = some image ∧ opened.image = none ∧
    (image.actionEntry 0).opens = [.K1] ∧ (image.actionEntry 0).inhibit = true ∧ (image.actionEntry 0).capture = true ∧
    (image.actionEntry 0).wakeHost = true ∧ (holding.channel .K1).state.isClosed = true ∧
    (holding.channel .K2).state.isClosed = false ∧ holding.sequencer.state = .idle ∧ .current ∉ holding.inhibit ∧
    (let s : State := { holding with sequencer := { holding.sequencer with state := .connected } }
     s.image = some image ∧ s.sequencer.state ≠ .idle ∧ s.sequencer.state ≠ .tripped ∧ s.sequencer.state ≠ .disconnecting) ∧
    (asleep .asleep none).sleep.op ≠ .run ∧ (asleep .asleep none).sleep.op ≠ .unconfigured ∧
    (asleep .asleep none).image = some image ∧ (image.actionEntry 1).opens = [] ∧
    (image.actionEntry 1).inhibit = false ∧ (image.actionEntry 1).capture = false ∧
    (image.actionEntry 1).wakeHost = false ∧ (image.actionEntry 2).opens = [] ∧ (image.actionEntry 2).capture = true ∧
    holding.captures.list.length < 3 ∧
    (let s : State := { run with captures := ⟨[capture, capture, capture], 10#8, none⟩ }
     s.image = some image ∧ 3 ≤ s.captures.list.length) := by decide +kernel

/-- An action of one effect, whose order is no choice: the cause joins the set, and a second firing leaves it there once. -/
theorem test_fire_inhibit : let i : Image := { image with action := [[0x00, 0x01]] }
    let s : State := { run with working := some ⟨i, 1#32, .A⟩ }
    (s.fire (some 0) .current none).inhibit = [.current] ∧
      ((s.fire (some 0) .current none).fire (some 0) .current none).inhibit = [.current] := by decide +kernel

theorem test_meets_FeedbackIsJudged : run.oscillator = true ∧ true ≠ (run.channel .K1).rawClosed ∧
    (let c := { closedIn .hold true with rawClosed := false, debounceExpiry := some 0#32 }
     let s := withChannel .K1 c true
     s.held = false ∧ (s.channel .K1).debounceExpiry = some 0#32 ∧ (s.channel .K1).rawClosed ≠ (s.channel .K1).debouncedClosed ∧
      (s.channel .K1).settleExpiry = none ∧ (s.channel .K1).state = .hold ∧ s.window.armed = !s.allOpen) ∧
    (let c := { closedIn .opened false with rawClosed := true, debounceExpiry := some 0#32 }
     let s := withChannel .K1 c false
     (s.channel .K1).rawClosed ≠ (s.channel .K1).debouncedClosed ∧ (s.channel .K1).state = .opened) ∧
    (let c := { closedIn .opened true with rawClosed := false, welded := true, debounceExpiry := some 0#32 }
     let s := withChannel .K1 c false
     (s.channel .K1).rawClosed ≠ (s.channel .K1).debouncedClosed ∧ (s.channel .K1).welded = true) ∧
    (let c := { closedIn .opened true with settleExpiry := some 0#32 }
     let s := withChannel .K1 c false
     (s.channel .K1).settleExpiry = some 0#32 ∧ (s.channel .K1).debouncedClosed = true) ∧
    run.image = some image ∧ opened.image = none ∧ opened.held = false ∧ opened.oscillator = true ∧
    (opened.channel .K1).settleExpiry ≠ none := by decide +kernel

/-- PRECHARGING at 100 ms with a number of good words. -/
def precharging (words : Nat) : State :=
  { holding with
    time := 100000#32
    sequencer := { run.sequencer with
      state := .precharging, prechargeStart := some 0#32, minimumExpiry := some 50000#32, maximumExpiry := some 100000#32
      goodWords := words } }

theorem test_meets_SequencerSteps : (precharging 1).held = false ∧ (precharging 1).image = some image ∧
    (precharging 1).sequencer.state = .precharging ∧ reached 50000#32 (precharging 1).time = true ∧
    (precharging 1).sequencer.goodWords < image.shared.endCount ∧
    image.shared.endCount ≤ (precharging 2).sequencer.goodWords ∧ (precharging 2).inhibit = [] ∧
    (precharging 2).channelOf .pos = some .K3 ∧ reached 100000#32 (precharging 1).time = true := by decide +kernel

theorem test_meets_ResetsAct : run.pins.reset = .high ∧
    (let s : State := { run with pins := { run.pins with reset := .low 9 } };
      s.pins.reset ≠ .high ∧ s.pins.reset = .low 9 ∧ (9 < 10) ∧ s.passMicrosecond.pins.reset = .low 10 ∧ 10 ≤ 10 ∧
      s.hsdo 1 = none) ∧
    (let s : State := { run with pins := { run.pins with reset := .held } }; s.pins.reset = .held) ∧
    (pulling.drives.set .K1 ⟨true, none⟩ |>.get .K1).on = true := by decide +kernel

theorem test_meets_StartupSelects : State.reset.held = false ∧ State.reset.startup ≠ none ∧
    State.reset.update = UpdateEngine.reset ∧ State.reset.link.state = .shut ∧ State.reset.store.examined.select = none ∧
    (ImageStore.select ⟨⟨.valid, 3#32, 0#32, Image.erased⟩, ⟨.valid, 4#32, 0#32, Image.erased⟩, 3#32, false, 0#64⟩) =
      some .B ∧
    (ImageStore.select ⟨⟨.valid, 4#32, 0#32, Image.erased⟩, ⟨.valid, 4#32, 0#32, Image.erased⟩, 3#32, false, 0#64⟩) =
      some .A := by decide +kernel

theorem test_meets_CloseRequestsPullIn : (run.sleep.op = .run ∧ (run.channel .K1).settleExpiry = none ∧
    (run.channel .K1).state = .opened ∧ run.image = some image ∧ run.window.armed = !run.allOpen) ∧ opened.sleep.op ≠ .run ∧
    ((withChannel .K1 (closedIn .dropout false) true).channel .K1).state = .dropout ∧
    (holding.channel .K1).state.isClosed = true := by decide +kernel

theorem test_meets_OpenRequestsDropOut : (run.channel .K1).state.isClosed = false ∧ holding.image = some image ∧
    (holding.channel .K1).state.isClosed = true ∧ holding.window.armed = !holding.allOpen := by decide +kernel

theorem test_meets_ConnectAnswers : run.linkReady ∧ (run.sleep.op = .run ∧ run.sequencer.state = .idle ∧ run.inhibit = [] ∧
      run.stream.state = .live) ∧ (∀ k, (run.channel k).welded = false) ∧ (∀ k, (run.channel k).settleExpiry = none) ∧
    run.image = some image ∧ run.channelOf .neg = some .K1 ∧ run.idleIsOpen ∧ run.windowFollows ∧
    opened.sleep.op ≠ .run ∧ opened.stream.state ≠ .live ∧ (∃ k, (opened.channel k).settleExpiry ≠ none) := by
  refine ⟨test_run_ready, by decide +kernel, fun k => ?_, fun k => ?_, rfl, by decide +kernel, fun _ k => ?_,
    by unfold State.windowFollows; decide +kernel, by decide +kernel, by decide +kernel, .K1, by decide +kernel⟩ <;>
    cases k <;> rfl

theorem test_meets_DisconnectAnswers : run.linkReady ∧ run.sequencer.state = .idle ∧
    (precharging 1).sequencer.state = .precharging ∧ (precharging 1).linkReady ∧ (precharging 1).allOpen = false ∧
    run.allOpen = true := ⟨test_run_ready, rfl, rfl, ready_of _ rfl rfl, by decide +kernel, by decide +kernel⟩

/-- `run` with its Sequencer in a state, every channel OPEN. -/
def sequencing (x : SeqState) : State := { run with sequencer := { run.sequencer with state := x } }

theorem test_meets_DisconnectAnswers_states : (∀ x, (sequencing x).linkReady ∧ (sequencing x).sequencer.state = x) ∧
    (sequencing .tripped).allOpen = true ∧ (sequencing .failed).allOpen = true ∧
    (let s : State := { holding with sequencer := { run.sequencer with state := .failed } };
      s.sequencer.state = .failed ∧ s.allOpen = false) := by
  refine ⟨fun x => ⟨ready_of _ rfl rfl, rfl⟩, by decide +kernel⟩

/-- CONNECTED, with NEG in HOLD. -/
def connected : State := { holding with sequencer := { run.sequencer with state := .connected } }

theorem test_meets_AuxAnswers : connected.linkReady ∧ connected.sequencer.state = .connected ∧ connected.inhibit = [] ∧
    connected.channelOf .aux = some .K4 ∧ connected.closeAnswer .K4 = .taken ∧ connected.closedOf [.aux] = [] ∧
    (let s : State := { connected with channels := connected.channels.set .K4 (closedIn .hold true) };
      s.closeAnswer .K4 = .already ∧ s.closedOf [.aux] = [.K4]) ∧
    (let s : State := { connected with channels := connected.channels.set .K4 (closedIn .dropout true) };
      s.closeAnswer .K4 = .refused) := ⟨ready_of _ rfl rfl, by decide +kernel⟩

theorem test_meets_AckTripAnswers : run.linkReady ∧ decodeCause 1 64 0 = none ∧ decodeCause 1 63 0 = some (.limit 63) ∧
    decodeCause 2 1 16 = some (.node .B 16) ∧ decodeCause 5 4 3 = some (.contactor .K4 .welded) ∧ decodeCause 5 4 4 = none ∧
    (let s : State := { run with inhibit := [.limit 63] };
      Cause.limit 63 ∈ s.inhibit ∧ s.conditionGone (.limit 63) = true ∧ Cause.tamper ∉ s.inhibit) ∧
    (let s : State := { opened with inhibit := [.current] };
      Cause.current ∈ s.inhibit ∧ s.conditionGone .current = false) := ⟨test_run_ready, by decide +kernel⟩

theorem test_meets_SuperviseAnswers : holding.linkReady ∧ run.window.armed = false ∧
    (holding.window.armed = true ∧ holding.window.reference = some 0#32 ∧ holding.wmin * 1000 = 10000) ∧
    (9999 < 10000 ∧ (9999#32 - 0#32).toNat < 10000 ∧ 10000 ≤ (10000#32 - 0#32).toNat) ∧ holding.window.lastGood = none ∧
    ((20000#32 - 0#32).toNat ≤ holding.wmax * 1000) ∧
    (let s : State := { holding with time := 10000#32, window := ⟨true, some 0#32, true, some 20000#32, some 0xFF#8, 0⟩ }
     10000 ≤ (s.time - 0#32).toNat ∧ s.window.lastGood = some ((0 : Byte) - 1#8) ∧ s.window.lastGood ≠ none ∧
      s.window.lastGood ≠ some ((1 : Byte) - 1#8)) :=
  ⟨ready_of _ rfl rfl, by decide +kernel⟩

theorem test_meets_SupervisionFaults : holding.image = some image ∧ holding.window.faults + 1 < image.shared.faultLimit ∧
    image.shared.faultLimit ≤ 1 + 1 ∧ holding.held = false ∧ holding.window.expiry = some 20000#32 ∧
    reached 20000#32 20000#32 = true := by decide +kernel

theorem test_meets_SleepAnswers : run.linkReady ∧ run.sleepRefusal = none ∧ run.image = some image ∧
    opened.sleepRefusal = some (.refusedState, .state) ∧ holding.sleepRefusal = some (.refusedState, .contactor) ∧
    (let s : State := { run with update := { run.update with state := .opened } };
      s.sleepRefusal = some (.busy, .update)) := ⟨test_run_ready, by decide +kernel⟩

theorem test_meets_PatrolsBeginAndEnd :
    (let s : State := { run with
        link := { run.link with state := .closing }, sleep := { run.sleep with shutExpiry := some 0#32 } }
     s.held = false ∧ s.link.state = .closing ∧ s.sleep.shutExpiry = some 0#32 ∧ reached 0#32 s.time = true) ∧
    (let s := asleep .asleep none
     s.image = some image ∧ s.sleep.op = .asleep ∧ s.sleep.patrolTimer = some ⟨1000000#32, 0⟩) ∧
    (∃ p ∈ (round .sent none false).parts, p.state = .sent ∧ ∃ x ∈ p.readings, x.status = .missing) := by
  refine ⟨by decide +kernel, by decide +kernel, _, List.mem_singleton.2 rfl, rfl, _, List.mem_singleton.2 rfl, rfl⟩

theorem test_meets_OscillatorAndNodesWake : let s := asleep .patrol (some .oscStart)
    s.held = false ∧ s.sleepWork.phaseExpiry = some 0#32 ∧ reached 0#32 s.time = true ∧ s.sleep.phase = some .oscStart ∧
      s.sleep.op = .patrol ∧ (asleep .waking (some .nodeWake)).sleep.phase = some .nodeWake := by decide +kernel

theorem test_meets_WakeInputsAreWatched_filters : let s := asleep .asleep none
    let t : Tracker := ⟨some false, some true, some 0#32, none, none⟩
    s.wakeSetting .wake1 = some ⟨.rise, 1000, false⟩ ∧ s.wakeSetting .wake2 = some ⟨.either, 100, true⟩ ∧
      s.pins.wake.get .wake1 ≠ true ∧ (s.setTracker .wake1 t).sleep.trackers.get .wake1 = t ∧
      reached 0#32 s.time = true ∧ WakeMode.names .rise true = true ∧ WakeMode.names .rise false = false ∧
      opened.held = false ∧ opened.wakeSetting .wake1 = none ∧ opened.pins.wake.get .wake1 ≠ true := by
  decide +kernel

theorem test_meets_WakeInputsAreWatched_pulses : let s : State := { asleep .asleep none with
      time := 16000#32, sleepWork := { run.sleepWork with pulseStart := some 0#32 } }
    s.held = false ∧ s.sleepWork.pulseStart = some 0#32 ∧ s.sleepWork.senseOut = false ∧
      reached (0#32 + micros s.pulsePeriod) s.time = true ∧ reached (0#32 + micros s.pulseOn) 100#32 = true ∧
      s.wakeSetting .wake2 = some ⟨.either, 100, true⟩ := by decide +kernel

/-- An update window with epoch 2 and a staged image. -/
def updating (u : UpdateState) : State :=
  { run with
    update := { run.update with
      state := u, staging := some image, stagedEpoch := some 2#32, idleExpiry := some 0#32, target := some .B }
    commit := ⟨some 7#8, checkWord 0#64 2#32 image, checkWord 0#64 2#32 image, none, false⟩
    store := ⟨.new, ⟨.writing, 2#32, 0#32, image⟩, 1#32, false, 0#64⟩ }

theorem test_meets_UpdateOpenAnswers : run.linkReady ∧ run.update.latch = false ∧ run.sleep.op ≠ .waking ∧
    run.serviceRequired = false ∧ run.update.state = .closed ∧ run.store.floor < 1#32 ∧ (0#32 : Epoch) ≤ run.store.floor ∧
    (updating .opened).update.state ≠ .closed := ⟨test_run_ready, by decide +kernel⟩

theorem test_meets_UpdateStageAnswers : (updating .opened).linkReady ∧ (updating .opened).update.latch = false ∧
    (updating .opened).update.state = .opened ∧ (updating .opened).update.staging = some image ∧
    recordCount 1 ≤ (16 : Byte).toNat ∧ (15 : Byte).toNat < recordCount 1 ∧ failingField 7 0 [4, 4] = none ∧
    failingField 7 0 [5, 4] = some 0 ∧ failingField 7 0 [4] = some 0xFF ∧ failingField 1 0 [1, 0x07, 0xD0, 1, 1, 0] = none ∧
    failingField 1 0 [1, 0x07, 0xD1, 1, 1, 0] = some 1 := ⟨ready_of _ rfl rfl, by decide +kernel⟩

theorem test_meets_ReadRecordAnswers : (updating .opened).linkReady ∧ recordCount 1 ≤ (16 : Byte).toNat ∧
    (15 : Byte).toNat < recordCount 1 ∧ run.update.state ≠ .opened ∧ opened.image = none ∧ run.image = some image ∧
    (updating .opened).update.staging = some image := ⟨ready_of _ rfl rfl, by decide +kernel⟩

theorem test_meets_CommitValidates : (updating .opened).linkReady ∧ ((updating .validating).update.state = .validating ∧
      (updating .validating).commit.tag = some 7#8 ∧ (updating .validating).link.state ≠ .shut) ∧
    validationFailure Image.blank 0#64 2#32 0#32 = some (.steps 1 0) ∧
    validationFailure image 0#64 2#32 (checkWord 0#64 2#32 image) = none := by
  refine ⟨ready_of _ rfl rfl, by decide +kernel, by decide +kernel, ?_⟩
  unfold validationFailure checkFailure
  rw [if_pos rfl]
  decide +kernel

theorem test_meets_TargetSlot : run.working = some ⟨image, 1#32, .A⟩ ∧ run.targetSlot = .B ∧ opened.working = none ∧
    opened.targetSlot = .A := by decide +kernel

theorem test_meets_CommitEndsAndApplies : ((updating .writing).held = false ∧
      (updating .writing).update.target = some .B ∧ (updating .writing).update.stagedEpoch = some 2#32) ∧
    (updating .verifying).update.state = .verifying ∧ (updating .verifying).commit.storeFault = false ∧
    checkWord (updating .verifying).store.identity ((updating .verifying).store.slot .B).epoch
      ((updating .verifying).store.slot .B).image = (updating .verifying).commit.kept :=
  ⟨⟨rfl, rfl, rfl⟩, rfl, rfl, rfl⟩

theorem test_meets_IdleExpiryClosesWindow : (updating .opened).held = false ∧ (updating .opened).update.state = .opened ∧
    (updating .opened).update.idleExpiry = some 0#32 ∧ reached 0#32 (updating .opened).time = true := by decide +kernel

theorem test_meets_UpdateAbortAnswers : (updating .writing).linkReady ∧ (updating .writing).update.state = .writing ∧
    (updating .writing).update.target = some .B ∧ run.update.state = .closed := ⟨ready_of _ rfl rfl, by decide +kernel⟩

theorem test_meets_TamperClearAnswers : run.linkReady ∧ run.tampFilter.active = false ∧ run.svcFilter.active = false ∧
    (let s : State := { run with svcFilter := ⟨true, true, none, none⟩ }; s.svcFilter.active = true) :=
  ⟨test_run_ready, by decide +kernel⟩

theorem test_meets_TamperAndServiceFilters :
    (let s : State := { run with tampFilter := ⟨true, false, some true, some 0#32⟩, svcFilter := ⟨true, false, none, none⟩ }
     s.held = false ∧ s.pins.tamp ≠ true ∧ s.tampFilter.running = true ∧ s.svcFilter.running = true ∧
      s.tampFilter.pendingExpiry = some 0#32 ∧ reached 0#32 s.time = true ∧ s.tampFilter.pending = some true) ∧
    opened.image = none ∧ (updating .verifying).update.target = some .B ∧ run.image = some image ∧
    image.tamperAction = some 0 ∧ (image.actionEntry 0).inhibit = true ∧ (updating .opened).update.state ≠ .closed := by
  decide +kernel

/-! ### States that meet the hypotheses of the further clauses -/

/-- `run` with chain A changed. -/
def withPort (f : ChainPort → ChainPort) : State := { run with ports := ⟨f run.ports.a, run.ports.b⟩ }

theorem test_meets_StatusAnswers_codes : (0 : Byte).toNat = 0 ∧ 9 < (10 : Byte).toNat ∧ (2 : Byte) ≠ 1#8 := by decide

theorem test_meets_EndOfEventFrame_entering :
    (let s : State := { run with
        cursor := ⟨.stopping, 0, 0#32, 0#32⟩, sleep := { run.sleep with op := .entering, phase := some .draining } }
     s.cursor.state = .stopping ∧ s.pendingRound = none ∧ s.ring = [] ∧ (s.port .A).run = .running) ∧
    run.sleep.op ≠ .entering ∧ run.image = some image ∧ run.sleep.latched = .empty ∧
    (let s : State := { run with sleep := { run.sleep with latched := WakeSet.empty.add .tamper } };
      s.sleep.latched ≠ .empty) ∧
    (let s : State := { run with
        cursor := ⟨.stopped, 0, 0#32, 0#32⟩, sleep := { run.sleep with op := .entering, phase := some .resting }
        link := State.reset.link }
     let w := ((s.arbitrate .A).arbitrate .B).settleCursor
     w.sleep.op = .entering ∧ w.sleep.phase = some .resting ∧ w.cursor.state = .stopped ∧
      w.sleepWork.awaiting = .both false ∧ w.link.state = .shut) := by decide +kernel

theorem test_meets_ChainStopAnswers_steps :
    (run.port .A).transaction = none ∧ (collecting.port .A).transaction = some .trigger ∧
    collecting.collectingRound .A = some (round .sent none false) ∧
    ((Order.echo 1).owner = .echo ∧ (⟨1, 0x20, [], .pass 7#8⟩ : Order).owner = .pass 7#8) ∧
    (((flying (.order (.echo 1) 3#4 35#32 85#32)).port .A).transaction = some (.order (.echo 1) 3#4 35#32 85#32) ∧
      ((flying (.broadcast ⟨0, 0x20, [], .pass 7#8⟩ 85#32)).port .A).transaction =
        some (.broadcast ⟨0, 0x20, [], .pass 7#8⟩ 85#32)) ∧
    (Order.rest.owner = .rest ∧ Order.rouse.owner = .rouse) ∧
    ((withPort fun p => { p with internal := [.rest] }).port .A).internal = [.rest] ∧
    (let s := withPort fun p => { p with survey := .echoing 1, run := .stopped };
      (s.port .A).survey ≠ .idle ∧ (s.port .A).run ≠ .running) ∧
    (let s := withPort fun p => { p with run := .draining };
      (s.port .A).run = .draining ∧ (s.port .A).transaction = none) := by decide +kernel

theorem test_meets_SampleSetsFillEntries_flags : opened.image = none ∧ run.image = some image ∧
    (image.timing .A).autoSurvey = false ∧
    (let i : Image := { image with chainTiming := List.replicate 2 [0x00, 0x14, 0x03, 0xE8, 0, 0, 0, 0x32, 0, 1] };
      (i.timing .A).autoSurvey = true) := by decide +kernel

/-- A word of the current span, 100 µs after instant 20. -/
def word : CurrentSample := ⟨5#24, 1#8, 120#32, false, true⟩

theorem test_meets_CollectionsEnd_placement : (∀ x ∈ run.ring, x.number ≠ 1#16) ∧
    (∃ x ∈ collecting.ring, x.number = (round .sent none false).number) ∧
    ((round .sent none true).closed = true ∧ (round .sent none true).holders = 0) ∧
    (let y := { round .sent none true with holders := 1 }; y.closed = false ∨ y.holders ≠ 0) ∧
    (∀ p ∈ (round .waiting none false).parts, p.state ≠ .sent) ∧
    ((round .sent none false).parts.map fun p => (p.state, p.actual)) = [(.sent, some 0#32)] ∧
    opened.stream.state = .absent ∧
    (run.stream.state ≠ .absent ∧ run.stream.history = [] ++ ⟨0#24, 0#8, 0#32, true, true⟩ :: []) ∧
    (let c : CurrentStream := { run.stream with history := [⟨3#24, 1#8, 9#32, false, false⟩, ⟨5#24, 2#8, 19#32, false, false⟩] }
     c.state ≠ .absent ∧ (∀ y ∈ c.history, y.spanStart = false) ∧ c.span = c.history ∧ c.absented.span = []) := by
  refine ⟨by decide +kernel, ⟨_, List.mem_singleton.2 rfl, rfl⟩, by decide +kernel⟩

theorem test_meets_CollectionsEnd_current :
    (let skew := fun x : CurrentSample => instantDiff (x.arrival - micros 0) 20#32
     skew word = 100 ∧ -250 ≤ skew word ∧ skew word ≤ 250 ∧ 250 < skew { word with arrival := 271#32 } ∧
      skew { word with arrival := 270#32 } = 250) := by decide +kernel

theorem test_meets_CollectionsEnd_posts :
    (let takers := fun (s : State) => s.captures.list.filter fun c => !c.complete && c.anchor != some 1#16
     takers collecting = [] ∧ collecting.reports 1#16 = true ∧ takers run = [] ∧ run.reports 1#16 = false ∧
      takers { run with captures := ⟨[capture], 10#8, none⟩ } ≠ [] ∧
      takers { collecting with captures := ⟨[capture], 10#8, none⟩ } ≠ []) ∧
    capture.complete = false ∧ { capture with complete := true }.complete = true ∧
    collecting.record 1#16 = some (round .sent none false) := by decide +kernel

theorem test_meets_OrdersEnd_otherAnswer : let s := flying (.order (.echo 1) 3#4 35#32 85#32)
    s.held = false ∧ (2#4 : BitVec 4) ≠ 3#4 ∧
      ((s.port .A).kept.find? fun k => k.tag == 2#4 && k.position == (1 : Byte).toNat) = some ⟨2#4, 1, 7#8⟩ ∧
      (2 : Byte).toNat ≠ (Order.echo 1).position ∧ (∀ k ∈ (s.port .A).kept, k.tag ≠ 3#4 ∨ k.position ≠ (2 : Byte).toNat) := by
  decide +kernel

theorem test_meets_SurveySteps_ends : run.target * 10 < latencyOf 100000 ∧ ((stopping .draining).port .A).run ≠ .running ∧
    (∀ e ∈ (run.port .A).table, e.position ≤ 1) ∧ (run.port .A).surveyPending = false ∧
    (let s := withPort fun p => { p with surveyPending := true }
     (s.port .A).surveyPending = true ∧ s.sleep.op = .run ∧ (s.port .A).table ≠ []) ∧
    ¬((opened.port .A).survey = .idle ∧ opened.sleep.op = .run ∧ (opened.port .A).run = .running) ∧
    (let s := flying (.order (.setHoldoff 1 5#16) 3#4 35#32 85#32)
     s.held = false ∧ (1 : Byte).toNat = (Order.setHoldoff 1 5#16).position ∧ reached 85#32 s.time = true ∧
      (s.port .A).transaction = some (.order (.setHoldoff 1 5#16) 3#4 35#32 85#32)) := by decide +kernel

theorem test_meets_ArbiterDecides_planned : opened.cursor.state ≠ .running ∧
    (run.cursor.state = .running ∧ (run.port .A).run = .running ∧ run.update.state ≠ .applyPending) ∧
    (let s : State := { run with update := { run.update with state := .applyPending } }
     s.update.state = .applyPending ∧ (s.upcomingTrigger .A).isSome = true ∧ s.upcomingTrigger .B = none) ∧
    (∀ x ∈ run.upcoming, x.1.trigger = true → Chain.B ∉ x.1.chains) ∧
    (run.upcoming.map fun x => decide (x.1.trigger = true ∧ Chain.A ∈ x.1.chains)) = [true] ∧
    run.cursor.step < run.steps.length ∧ run.steps[0]?.isSome = true ∧
    (let s : State := { run with working := some ⟨{ image with
        schedule := [1, 0, 10, 1, 1, 1] :: [2, 0, 10, 1, 1, 1] :: List.replicate 14 [0, 0, 0, 0, 0, 0] }, 1#32, .A⟩ }
     s.cursor.step < 1 ∧ s.steps[1]?.isSome = true ∧ s.cursor.step < s.steps.length) := by decide +kernel

theorem test_meets_ArbiterDecides_frames : ((Order.echo 1).position ≠ 0 ∧ Order.rest.position = 0) ∧
    (run.port .A).transaction = none ∧
    ((collecting.port .A).transaction = some .trigger ∧ (collecting.collectingRound .A).isSome = true) ∧
    ((flying (.order (.echo 1) 3#4 35#32 85#32)).port .A).transaction = some (.order (.echo 1) 3#4 35#32 85#32) ∧
    ((flying (.broadcast .rest 85#32)).port .A).transaction = some (.broadcast .rest 85#32) := by decide +kernel

/-- An entry over the cells of position 1 of chain A, or over their spread, and a round with two cells. -/
def cellEntry (q : Quantity) : LimitEntry := ⟨q, [.A], 1, 1, 1, 2, 100, 200, 1, none, true, true⟩
def readRound (low high : BitVec 16) : RoundRecord := { round .sent none false with
  parts := [⟨.A, .sent, some 0#32, some 0#32, none, [⟨1, .ok, [low, high], [], false, false⟩], none⟩] }

theorem test_meets_LimitsAreJudged_values :
    (coveredValues (cellEntry .cell) (readRound 100 201) = [⟨.A, 1, 1, 100⟩] ++ ⟨.A, 1, 2, 201⟩ :: [] ∧
      (100 ≤ (100 : Int) ∧ (100 : Int) ≤ 200 ∧ (200 : Int) < 201)) ∧
    (let largest : Located := ⟨.A, 1, 2, 301⟩
     let smallest : Located := ⟨.A, 1, 1, 100⟩
     coveredValues (cellEntry .spread) (readRound 100 301) = [smallest] ++ largest :: [] ∧
      coveredValues (cellEntry .spread) (readRound 100 301) = [] ++ smallest :: [largest] ∧
      smallest.value < largest.value ∧ (200 : Int) < largest.value - smallest.value) ∧
    ((judgeRound (cellEntry .spread) (round .sent none false)).1 = .unknown ∧
      (judgeRound (cellEntry .cell) (readRound 100 200)).1 = .within) ∧
    collecting.record 1#16 = some (round .sent none false) ∧ opened.image = none ∧ run.image = some image ∧
    0 < image.limit.length ∧ run.limits[0]? = some ⟨.normal, 0, none⟩ := by decide +kernel

/-- `run` in a Sequencer state with K1 WELDED. -/
theorem test_meets_SequencerSteps_reports : run.image = some image ∧ (image.channelProfile .K1).role = .neg ∧
    (image.channelProfile .K2).role = .pre ∧ (image.channelProfile .K3).role = .pos ∧
    (∀ x, (sequencing x).image = some image ∧ (sequencing x).sequencer.state = x) ∧
    (run.inhibit = [] ∧ run.channelOf .pre = some .K2 ∧ run.channelOf .neg = some .K1) ∧
    { run with inhibit := [.tamper] }.inhibit ≠ [] ∧
    (let s : State := { run with channels := run.channels.set .K2 { run.channel .K2 with welded := true } };
      (s.channel .K2).welded = true ∧ (run.channel .K2).welded = false) ∧
    (sequencing .disconnecting).allOpen = true ∧
    ((holding.channel .K1).state.isClosed = true ∧ holding.isOpen .K2 = true ∧ holding.isOpen .K3 = true ∧
      holding.isOpen .K4 = true) ∧
    (let s : State := { run with channels := run.channels.set .K3 (closedIn .dropout true) };
      s.allOpen = false ∧ (s.channel .K1).state.isClosed = false ∧ s.isOpen .K3 = false) := by
  refine ⟨rfl, by decide +kernel, by decide +kernel, by decide +kernel, fun x => ⟨rfl, rfl⟩, by decide +kernel⟩

/-- The shared record of `image` names no stuck action; one with action 0 does. -/
theorem test_meets_SequencerSteps_faults : run.faultAction .stuck = none ∧
    (let s : State := { run with working := some ⟨{ image with contactor := (image.contactor.take 4) ++
        [[0x00, 0x00, 0x64, 0x01, 0x00, 0xFF, 0xFF, 0x00, 0xFF, 0x00, 0x32, 0x00, 0x64, 0x00, 0x00, 0x64, 0x02, 0x00, 0x0A,
          0x00, 0x14, 0x02, 0xFF]] }, 1#32, .A⟩ }; s.faultAction .stuck ≠ none) ∧
    ((sequencing .idle).sequencer.state = .idle ∧ (sequencing .connected).sequencer.state ≠ .tripped) := by decide +kernel

/-- Reports that are no fault and name no step of the state, at the edges of the table of R123. -/
theorem test_meets_SequencerSteps_others :
    ((sequencing .negClosing).sequencerReport .K2 .pullInEnd none).sequencer.state = .negClosing ∧
    ((sequencing .precharging).sequencerReport .K3 .stuck none).sequencer.state = .precharging ∧
    ((sequencing .posClosing).sequencerReport .K2 .dropoutEnd none).sequencer.state = .posClosing ∧
    ((sequencing .preReleasing).sequencerReport .K2 .dropped none).sequencer.state = .preReleasing ∧
    ((sequencing .preReleasing).sequencerReport .K4 .feedback none).sequencer.state = .preReleasing ∧
    ((sequencing .preReleasing).sequencerReport .K3 .dropped none).sequencer.state = .failed := by decide +kernel

/-- A weld report in DISCONNECTING with every channel OPEN (entry 57). -/
theorem test_weld_report_ends_disconnection :
    ((sequencing .disconnecting).sequencerReport .K1 .feedback none).sequencer.state = .idle := by decide +kernel

/-- Each channel, AUX K4 too, welded where the opening of its own weld action has made the Sequencer TRIPPED. -/
theorem test_meets_SequencerSteps_welds :
    (let s := sequencing .tripped
     let welded := fun k => { s with channels := s.channels.set k { s.channel k with welded := true } }
     (welded .K4).image = some image ∧ (image.channelProfile .K4).role = .aux ∧ ((welded .K4).channel .K4).welded = true ∧
      (∀ k, ((welded k).faultReport .posClosing k .feedback).sequencer.state = .failed) ∧
      (∀ k, ((welded k).faultReport .connected k .feedback).sequencer.state = .tripped) ∧
      ((welded .K2).faultReport .preReleasing .K2 .dropoutEnd).sequencer.state = .failed ∧
      (s.faultReport .disconnecting .K1 .stuck).sequencer.state = .failed) := by
  refine ⟨rfl, by decide +kernel, by decide +kernel, fun k => ?_, fun k => ?_, by decide +kernel, by decide +kernel⟩ <;>
    cases k <;> decide +kernel

theorem test_meets_SequencerSteps_words : (precharging 1).sequencer.prechargeStart = some 0#32 ∧
    (sequencing .precharging).sequencer.prechargeStart = none ∧ (precharging 1).sequencer.minimumTaken = false ∧
    (let s : State := { precharging 1 with sequencer := { (precharging 1).sequencer with minimumTaken := true } }
     s.image = some image ∧ s.sequencer.minimumTaken = true ∧ image.shared.endCount ≤ min (s.sequencer.goodWords + 1) 64 ∧
      s.inhibit = [] ∧ s.channelOf .pos = some .K3 ∧ s.judgesWords = true) ∧
    image.shared.endCurrent < (101#24 : BitVec 24).toInt.natAbs ∧ ¬image.shared.endCurrent < (100#24 : BitVec 24).toInt.natAbs ∧
    (let s : State := { precharging 1 with working := some ⟨{ image with limit := Image.blank.limit }, 1#32, .A⟩ };
      s.judgesWords = false) ∧
    run.sequencer.state ≠ .precharging := by decide +kernel

/-- Node 1 of chain A rests. -/
def resting (op : OpState) (phase : Option Phase) : State :=
  { asleep op phase with ports := ⟨{ run.ports.a with resting := true }, run.ports.b⟩ }

theorem test_meets_OscillatorAndNodesWake_rousing :
    ((asleep .waking (some .oscStart)).held = false ∧ (asleep .waking (some .oscStart)).sleep.phase = some .oscStart ∧
      (asleep .waking (some .oscStart)).sleep.op = .waking ∧ (asleep .patrol (some .nodeWake)).sleep.op = .patrol) ∧
    (let on := fun c => decide (c = Chain.A)
     let s := resting .waking (some .oscStart)
     s.image = some image ∧ (∀ c, on c = true ↔ c ∈ image.patrolTable.chains ∧ (s.port c).run = .running) ∧
      (∀ c, on c = true ↔ (s.port c).run = .running ∧ (s.port c).resting = true)) ∧
    (∀ c, (fun _ : Chain => false) c = true ↔
      ((asleep .waking none).port c).run = .running ∧ ((asleep .waking none).port c).resting = true) := by
  refine ⟨by decide +kernel, ⟨rfl, fun c => ?_, fun c => ?_⟩, fun c => ?_⟩ <;> cases c <;> decide +kernel

theorem test_meets_OscillatorAndNodesWake_rounds : let i : Image := { image with
      patrol := [[0x00, 0x01, 0x01, 0x01, 0x01, 0x01, 0x00, 0, 1, 0, 0, 1, 0, 0, 1, 0, 1, 1, 0]] }
    image.patrolTable.firstImmediate = true ∧ i.patrolTable.firstImmediate = false ∧
      (∃ c, (run.port c).run = .running) ∧ (∀ c, ((stopping .stopped).port c).run ≠ .running) ∧
      (image.patrolTable.chains.map (run.newPart run.time)).map ChainPart.state = [.sent] ∧
      (image.patrolTable.chains.map (collecting.newPart run.time)).map ChainPart.state = [.waiting] ∧
      (image.patrolTable.chains.map ((stopping .stopped).newPart run.time)).map ChainPart.state = [.stopped] ∧
      { round .sent none false with step := .wake }.step = .wake := by
  refine ⟨by decide +kernel, by decide +kernel, ⟨.A, rfl⟩, fun c => ?_, by decide +kernel⟩
  cases c <;> decide +kernel

theorem test_meets_OscillatorAndNodesWake_latched : run.sleep.latched = .empty ∧ WakeSet.empty.add .tamper ≠ .empty ∧
    (let s : State := { asleep .waking (some .rousing) with
        sleepWork := { run.sleepWork with awaiting := ⟨true, false⟩ } }
     s.sleepWork.awaiting.get .A = true ∧ s.sleepWork.awaiting.get .B = false ∧ s.image = some image ∧
      s.sleep.phase = some .rousing ∧ s.sleep.op = .waking) ∧
    (let s : State := { asleep .patrol (some .resting) with
        sleepWork := { run.sleepWork with awaiting := ⟨true, false⟩ } }
     s.sleepWork.awaiting.get .A = true ∧ s.sleep.phase = some .resting ∧ s.sleep.op = .patrol) ∧
    run.sleepWork.awaiting.get .A = false ∧ (asleep .entering (some .resting)).sleep.op = .entering := by decide +kernel

theorem test_meets_PatrolsBeginAndEnd_rests : run.image = some image ∧
    (let r := { round .sent none true with step := .patrol }
     let j := judgeMiss run.sleep.missCount image.patrolTable.missLimit r
     r.step = RoundStep.patrol ∧ j = (0, true) ∧
      (({ asleep .patrol (some .round) with
        sleep := { (asleep .patrol (some .round)).sleep with missCount := j.1 } } : State).latch
          .patrolMiss).sleep.latched ≠ .empty) ∧
    (∀ p ∈ (readRound 1 2).parts, p.state = .sent → ∀ x ∈ p.readings, x.status ≠ .missing) ∧
    (∀ p ∈ (round .stopped none true).parts, p.state ≠ .sent) ∧ (asleep .patrol (some .round)).sleep.latched = .empty ∧
    (let on := fun c => decide (c = Chain.A)
     let s : State := { asleep .patrol (some .round) with sleepWork := { run.sleepWork with roused := ⟨true, false⟩ } }
     ∀ c, on c = s.sleepWork.roused.get c) := by
  refine ⟨rfl, by decide +kernel, by decide +kernel, by decide +kernel, by decide +kernel, fun c => ?_⟩
  cases c <;> rfl

theorem test_meets_WakeInputsAreWatched_samples : let s := asleep .asleep none
    s.wakeSetting .wake2 = some ⟨.either, 100, true⟩ ∧ s.pins.wake.get .wake2 = false ∧
      (s.sleep.trackers.get .wake2).filtered = none ∧
      (let t : Tracker := ⟨some true, none, none, some true, some true⟩; t.filtered = some (!false) ∧ t.last ≠ some false) ∧
      (let t : Tracker := ⟨some true, none, none, some false, some true⟩; t.filtered = some (!false) ∧ t.last = some false) ∧
      WakeMode.names .either false = true ∧ run.sleep.op = .run ∧ (asleep .patrol none).sleep.op = .patrol ∧
      s.sleep.op = .asleep ∧ (s.sleep.trackers.get .wake1).filtered = none := by decide +kernel

/-- Every table has a record of its length. -/
theorem test_meets_UpdateStageAnswers_lengths :
    (∀ t ∈ [1, 2, 4, 5, 7, 8, 9], ∃ r : Record, r.length = recordLength (BitVec.ofNat 8 t) 0) ∧
    ([0x01, 0x10, 0x04] : Record).length = 3 ∧ (31 < 32 ∧ 32 ≤ 32) ∧ ([0x0F, 0xFF] : Record).length = 2 ∧
    (image.contactor.getD 3 []).length = 9 ∧ (image.contactor.getD 4 []).length = 23 ∧
    failingField 3 31 [1, 16, 4] = none ∧ failingField 3 31 [1, 17, 4] = some 1 ∧ failingField 3 32 [15, 255] = none ∧
    failingField 3 32 [15, 16] = some 1 ∧ failingField 4 0 (image.limit.getD 0 []) = none ∧
    failingField 6 3 (image.contactor.getD 3 []) = none ∧ failingField 6 4 (image.contactor.getD 4 []) = none ∧
    failingField 8 0 (image.patrol.getD 0 []) = none ∧ failingField 9 0 [0, 2] = some 1 ∧ failingField 5 0 [16, 0] = some 0 := by
  refine ⟨fun t _ => ⟨List.replicate _ 0, List.length_replicate ..⟩, by decide +kernel⟩

/-- First position 5 and last 0; a first field, or a second alone, out of its range. -/
theorem test_limit_pair_failing_field :
    failingField 4 0 [1, 4, 1, 5, 0, 1, 1, 0, 0, 0, 0, 0, 0, 0, 9, 1, 0, 1] =
      some (BitVec.ofNat 8 (if Config.disorderAtSecond then 4 else 3)) ∧
    failingField 4 0 [1, 4, 1, 17, 0, 1, 1, 0, 0, 0, 0, 0, 0, 0, 9, 1, 0, 1] = some 3 ∧
    failingField 4 0 [1, 4, 1, 5, 17, 1, 1, 0, 0, 0, 0, 0, 0, 0, 9, 1, 0, 1] = some 4 :=
  ⟨by rfl, by decide +kernel, by decide +kernel⟩

/-- Images that a check of validation refuses, and the place it names. -/
theorem test_meets_CommitValidates_checks :
    stepsFailure { image with schedule := [2, 0, 10, 1, 1, 1] :: [0, 0, 0, 0, 0, 0] :: List.replicate 14 [2, 0, 10, 1, 1, 1] } =
      some (.steps 1 2) ∧
    (stepsFailure { image with schedule := [1, 0, 10, 1, 1, 1] :: List.replicate 15 [0, 0, 0, 0, 0, 0] }).isSome = true ∧
    stepsFailure image = none ∧
    widthFailure { image with schedule := [2, 0, 10, 1, 1, 1] :: [2, 0, 9, 1, 1, 1] :: List.replicate 14 [0, 0, 0, 0, 0, 0] } =
      some (.width 1 1) ∧ widthFailure image = none ∧
    scopeFailure { image with limit := [1, 1, 1, 2, 2, 1, 1, 0, 0, 0, 0, 0, 0, 0, 9, 1, 0, 1] :: image.limit.drop 1 } =
      some (.scope 4 0) ∧ scopeFailure image = none ∧
    actionFailure { image with limit := image.limit.take 1 ++
      [1, 4, 1, 1, 1, 1, 1, 0, 0, 0, 0, 0, 0, 0, 9, 1, 0xFF, 1] :: image.limit.drop 2 } = some (.actionIndex 4 1) ∧
    actionFailure image = none ∧ rolesFailure Image.blank = some (.roles 6 1) ∧ rolesFailure image = none ∧
    windowFailure image = none ∧ prechargeFailure image = none ∧ prechargeFailure Image.blank = some (.precharge 6 4) ∧
    (image.steps.map fun x => decide (x.width * 100 < (image.timing .A).window)) = [false] := by decide +kernel

theorem test_meets_CommitEndsAndApplies_apply :
    (let x : ImageStore := { run.store with slotA := { run.store.slotA with state := .valid, epoch := run.store.floor } };
      x.slotA.state = .valid ∧ x.slotA.epoch = x.floor) ∧
    (run.working = some ⟨image, 1#32, .A⟩ ∧ opened.working = none ∧ run.sleep.op ≠ .unconfigured ∧
      opened.sleep.op = .unconfigured ∧ run.window.armed = false) ∧
    (holding.window.armed = true ∧ holding.window.reference = some 0#32 ∧
      reached (0#32 + millis image.shared.wmax) holding.time = false ∧
      reached (0#32 + millis image.shared.wmax) 20000#32 = true) ∧
    ((run.port .A).table.map (fun e => Planned.mk e.position e.cells e.temps) = image.plan .A ∧
      (opened.port .A).table.map (fun e => Planned.mk e.position e.cells e.temps) ≠ image.plan .A) ∧
    (let s : State := { updating .verifying with commit := { (updating .verifying).commit with storeFault := true } };
      s.commit.storeFault = true) ∧
    ((run.port .A).survey = .idle ∧ (run.port .A).run = .running ∧ (run.port .A).table = [NodeEntry.fresh ⟨1, 1, 0⟩]) ∧
    (image.plan .A)[0]? = some ⟨1, 1, 0⟩ := by decide +kernel

theorem test_meets_TamperAndServiceFilters_event : run.update.state = .closed ∧ (updating .opened).update.state = .opened ∧
    ((updating .validating).update.state = .validating ∧ (updating .validating).commit.tag = some 7#8) ∧
    ((updating .writing).update.state = .writing ∧ (updating .writing).update.target = some .B) ∧ opened.image = none ∧
    run.image = some image ∧ run.captures.list.length < 3 ∧
    (let s : State := { run with captures := ⟨[capture, capture, capture], 10#8, none⟩ }; 3 ≤ s.captures.list.length) := by
  decide +kernel

/-- Bits of the word 8000_0105h, and two that are past its end. -/
def wordBits : List Bool := true :: List.replicate 22 false ++ [true] ++ List.replicate 5 false ++ [true, false, true]

/-- `run` with the strobe active and no bit yet. -/
def strobed : State := { run with pins := { run.pins with csfs := true } }

theorem test_meets_CurrentStreamFollowsWords_bits : run.held = false ∧ run.pins.csfs = false ∧ strobed.held = false ∧
    strobed.pins.csfs = true ∧ strobed.stream.bits = [] ∧ (wordBits.take 31).length < 32 ∧ wordBits.length = 32 ∧
    ∀ n, n < 32 → (0x80000105#32).getMsbD n = wordBits.getD n false := by decide +kernel

/-- 32 bits and two more under one strobe are one word; a strobe that ends early leaves none. -/
theorem test_receive_word :
    ((wordBits ++ [true, true]).foldl (fun (s : State) b => s.receiveBit b) strobed).pending = [.currentWord 0x80000105#32] ∧
    ((wordBits.take 31).foldl (fun (s : State) b => s.receiveBit b) strobed).pending = [] ∧
    (((wordBits.take 31).foldl (fun (s : State) b => s.receiveBit b) strobed).strobeChanges false).stream.bits = [] := by
  decide +kernel

theorem test_meets_SampleSetsFillEntries_ends : let p : ChainPart := ⟨.A, .sent, some 0#32, some 0#32, none, [⟨1, .ok, [9#16], [], false, false⟩], none⟩
    let r : RoundRecord := { round .sent none false with parts := [p] }
    let s : State := { collecting with ring := [r] }
    (collecting.record 1#16 = some (round .sent none false) ∧ ((round .sent none false).part .A).isSome = true ∧
      (∃ q ∈ (round .sent none false).parts, ∃ z ∈ q.readings, z.status = .missing) ∧
      (collecting.port .A).transaction ≠ none) ∧
    (s.record 1#16 = some r ∧ r.part .A = some p ∧ p.state = .sent ∧ p.endCause = none ∧
      (∀ z ∈ p.readings, z.status ≠ .missing) ∧ r.closed = false) ∧
    (let u : State := { s with ports := ⟨{ (s.port .A) with run := .draining }, s.ports.b⟩ }
     ((u.afterReading .A 1#16).port .A).run = .stopped) ∧
    ((s.afterReading .A 1#16).ring.map RoundRecord.closed) = [true] := by decide +kernel

theorem test_meets_ArbiterDecides_claims : let r : RoundRecord := { round .waiting none false with step := .wake }
    (waiting .wake).pendingRound = some r ∧ (∃ p ∈ r.parts, r.part .A = some p ∧ p.state = .waiting) ∧
    (let s : State := { run with ring := [round .sent (some .complete) true] ++ { r with number := 2#16 } :: [] }
     s.pendingRound = none ∧ s.ring = [round .sent (some .complete) true] ++ { r with number := 2#16 } :: [] ∧
      (∀ x ∈ [round .sent (some .complete) true], x.closed = true) ∧ s.claimWaits .A = true) ∧
    run.claimWaits .A = false := by decide +kernel

/-- A round that waits for chain A, and whose part on chain B is in some state. -/
def pairRound (b : PartState) : RoundRecord :=
  { round .waiting none false with parts := [⟨.A, .waiting, none, none, none, [], none⟩, ⟨.B, b, none, none, none, [], none⟩] }

theorem test_meets_StepExpires_withdrawals :
    (let s : State := { run with cursor := ⟨.stopping, 0, 0#32, 0#32⟩ }
     s.held = false ∧ s.cursor.state = .stopping ∧ s.claimWaits .A = false ∧ s.claimWaits .B = false) ∧
    (opened.held = false ∧ opened.cursor.state = .stopped) ∧
    (let marked (b : PartState) := (pairRound b).mapPart .A fun p => { p with state := .missed }
     (∀ p ∈ (marked .stopped).parts, p.state ≠ .waiting ∧ p.state ≠ .sent) ∧
      (∃ p ∈ (marked .waiting).parts, p.state = .waiting) ∧
      (∃ p ∈ (marked .sent).parts, p.state = .sent ∧ p.endCause = none)) ∧
    (∀ b, (pairRound b).closed = false ∧ (pairRound b).waitsFor .A = true) ∧
    (let s (b : PartState) : State := { run with pendingRound := some (pairRound b) }
     ((s .stopped).withdrawClaim .A .missed).ring.map RoundRecord.closed = [true] ∧
      ((s .waiting).withdrawClaim .A .missed).pendingRound.isSome = true) ∧
    (let s (b : PartState) : State := { run with ring := [] ++ pairRound b :: [] }
     (∀ b, (s b).pendingRound = none ∧ (s b).ring = [] ++ pairRound b :: []) ∧
      ((s .stopped).withdrawClaim .A .stopped).ring.map RoundRecord.closed = [true] ∧
      ((s .sent).withdrawClaim .A .stopped).ring.map RoundRecord.closed = [false]) := by
  refine ⟨by decide +kernel, by decide +kernel, by decide +kernel, fun b => ⟨rfl, rfl⟩, by decide +kernel,
    fun b => ⟨rfl, rfl⟩, by decide +kernel⟩

/-- The overdue claim of a WAKE round in the ring, its other part SENT and collecting, or with nothing left open. -/
theorem test_meets_CollectionsEnd_ringClaims : ∀ b ∈ [PartState.sent, .stopped],
    let r := { pairRound b with step := .wake }
    let s : State := { run with time := 20000#32, ring := [] ++ r :: [] }
    s.held = false ∧ s.pendingRound = none ∧ r.closed = false ∧ r.waitsFor .A = true ∧
      reached (r.planned + micros (s.windowOf .A)) s.time = true ∧
      (r.mapPart .A fun p => { p with state := .missed }).settled = decide (b = .stopped) ∧ s.withdrawalDue .A = true := by
  decide +kernel

/-- A survey order and a REST in one queue: the REST is reported, and the queue is empty. -/
theorem test_empty_internal : let s : State := { asleep .entering (some .resting) with
      ports := ⟨{ run.ports.a with internal := [.echo 1, .rest] }, run.ports.b⟩
      sleepWork := { run.sleepWork with awaiting := ⟨true, false⟩ } }
    ((s.emptyInternal .A).port .A).internal = [] ∧ ((s.emptyInternal .A).port .A).resting = false ∧
      (s.emptyInternal .A).sleepWork.awaiting.get .A = false := by decide +kernel

theorem test_meets_SleepAnswers_trackers : let p := image.patrolTable
    (p.inputs.w1.mode ≠ .off ∧ p.inputs.w1.pulsed = false) ∧ p.inputs.w2.pulsed = true ∧
      Image.blank.patrolTable.inputs.w1.mode = .off ∧ PatrolTable.pulses p = true ∧
      PatrolTable.pulses Image.blank.patrolTable = false := by
  decide +kernel

theorem test_meets_UpdateOpenAnswers_blank : (15 < 16 ∧ Image.blank.schedule.length = 16) ∧
    (Image.blank.schedule.getD 15 []).length = 6 ∧ (Image.blank.nodePlan.getD 31 []).length = 3 ∧
    (Image.blank.nodePlan.getD 32 []).length = 2 ∧ (Image.blank.limit.getD 63 []).length = 18 := by decide +kernel

theorem test_meets_CaptureNowAnswers_new : (image.capturePre = 1 ∧ run.image = some image ∧ opened.image = none) ∧
    captured.anchor none = some 1#16 ∧ captured.anchor (some 5#16) = some 5#16 ∧ collecting.anchor none = none ∧
    (captured.newCapture .host none).held = [⟨1#16, .pre, false⟩] ∧
    freeId [255#8, 1#8] 256 255#8 = 2#8 ∧ (3 < 256 ∧ 255#8 + BitVec.ofNat 8 3 = 2#8 ∧ 2#8 ∉ [255#8, 1#8] ∧
      ∀ i, i < 3 → 255#8 + BitVec.ofNat 8 i ∈ [255#8, 1#8] ∨ 255#8 + BitVec.ofNat 8 i = 0#8) := by decide +kernel

theorem test_meets_OpenRequestsDropOut_closing : holding.image = some image ∧ (holding.channel .K1).state.isClosed = true ∧
    holding.windowFollows ∧ ((holding.openRequest .K1 .sequencer (some 1#16)).channel .K1).state = .dropout := by
  refine ⟨rfl, by decide +kernel, by unfold State.windowFollows; decide +kernel, by decide +kernel⟩

/-- A capture requested while round 1 closes holds that round, and the round gains a holder. -/
theorem test_meets_TamperAndServiceFilters_capture :
    ((collecting.requestCapture (.action .tamper) (some 1#16)).captures.list.map fun c => (c.id, c.anchor, c.held.length)) =
      [(1#8, some 1#16, 1)] ∧
    (collecting.requestCapture (.action .tamper) (some 1#16)).ring.map RoundRecord.holders = [1] ∧
    (collecting.requestCapture (.action .tamper) none).captures.list.map Capture.anchor = [none] ∧
    (some 1#16 : Option RoundNumber).or ([] : List RoundNumber).head? = some 1#16 ∧
    run.tampFilter.pendingExpiry = none := by decide +kernel

/-! ### States that meet the hypotheses of the clauses about the wires, the tables and the bookkeeping -/

/-- An exchange that has clocked its last frame of 7 bytes out whole, with the status byte before it. -/
def clockedOut : Exchange := { live (.reply 5 .done .none) true with bits := List.replicate 64 false }

/-- A link in CLOSING or RESETTING whose expiry has come, with an exchange in progress. -/
def ending (e : Exchange) (x : LinkState) : State :=
  { exchanging e with
    link := { (exchanging e).link with state := x, resetExpiry := some 0#32 }
    sleep := { opened.sleep with shutExpiry := some 0#32 } }

/-- The expiry acts on a frame with one bit to go, and not on one that is clocked out whole. -/
theorem test_meets_BridgeResetAnswers_clocked : let short : Exchange := { clockedOut with bits := List.replicate 63 false }
    (ending clockedOut .resetting).held = false ∧ (ending clockedOut .resetting).finalClocked = true ∧
      (ending short .resetting).finalClocked = false ∧ reached 0#32 (ending short .resetting).time = true ∧
      (ending clockedOut .resetting).resetExpiryDue = false ∧ (ending short .resetting).resetExpiryDue = true ∧
      (ending clockedOut .closing).shutDue = false ∧ (ending short .closing).shutDue = true := by decide +kernel

theorem test_meets_EmptyQueueTicks_due : .stepExpiry ∈ ({ run with time := 1000#32 } : State).dueEvents ∧
    .stepExpiry ∉ ({ run with time := 999#32 } : State).dueEvents ∧
    .holdPwmPeriod .K1 ∈ ({ holding with time := 50#32 } : State).dueEvents ∧
    .shutExpiry ∉ (ending clockedOut .closing).dueEvents := by decide +kernel

/-- An ANSWER of no payload, and the start instant of its delimiter. -/
theorem test_meets_ReceivedFramesAreRead_bits :
    ((0xA5#8 :: chainFrame 8#8 3#4 1#8 []).foldl (fun (s : State) b => s.receiveLine .A 4 (lineBits b))
      { run with time := 100#32 }).pending = [.answer .A 3#4 1#8 [] ⟨95#32, 4⟩] ∧
    (let s := withPort fun p => { p with reception := .frame ⟨95#32, 4⟩ ((chainFrame 8#8 3#4 1#8 []).take 4) }
     s.held = false ∧ (s.port .A).reception = .frame ⟨95#32, 4⟩ ((chainFrame 8#8 3#4 1#8 []).take 4) ∧
      frameEnds ((chainFrame 8#8 3#4 1#8 []).take 4) = false ∧
      (chainFrame 8#8 3#4 1#8 []).take 4 ++ (chainFrame 8#8 3#4 1#8 []).drop 4 = chainFrame 8#8 3#4 1#8 [] ∧
      ((chainFrame 8#8 3#4 1#8 []).drop 4).length = 1) ∧
    ([true] : List Bool).head? = some true ∧ ((lineBits 0).take 9).getLast? = some false := by decide +kernel

theorem test_meets_FramesAreRefusedOrDiscarded_shut : State.reset.link.state = .shut ∧
    captured.record 1#16 ≠ none ∧ run.sleep.op = .run ∧ (asleep .asleep none).sleep.op = .asleep ∧
    (State.reset.reply 5 .done .none).link.unsolicitedDiscard = true := by decide +kernel

theorem test_meets_ExchangeBegins_bits : opened.statusByte = 0x04#8 ∧ State.reset.statusByte = 0xFF#8 ∧
    (let e := live (.reply 5 .done .none) false
     let s := exchanging e
     s.link.exchange = some e ∧ s.held = false ∧ s.pins.reset = .high ∧ e.clock = false ∧
      (s.clockRises true).link.exchange.map Exchange.clock = some true ∧
      (List.range 8).map (fun n => (((List.range n).foldl (fun (s : State) _ => (s.clockRises true).clockFalls) s).hsdoBit)) =
        [some false, some false, some false, some false, some false, some true, some false, some false] ∧
      ((((s.clockRises true).clockFalls.clockRises true).clockRises false).selectRises).pending = [.exchangeEnd []]) ∧
    ([true, false] : List Bool).length < 8 := by decide +kernel

/-- What follows an exchange in a link that takes no request: the good frame is discarded and said so. -/
theorem test_meets_ExchangeEndJudgesInbound_discards : let e := live (.reply 5 .done .none) false
    (let s : State := { exchanging e with link := { (exchanging e).link with owed := 4 } }
     s.link.exchange = some e ∧ s.held = false ∧
      ∃ t, exec (.exchangeEnd connectFrame) s = .next t ∧ t.link.lastDiscarded = true ∧ t.link.owed = 4) ∧
    (∃ t, exec (.exchangeEnd connectFrame) (ending e .closing) = .next t ∧ t.link.lastDiscarded = true) ∧
    (decodeInbound [0x01, 0x07, 0xFC] = .failed ∧ decodeInbound [0x03] = .failed ∧ decodeInbound [0x02] = .failed ∧
      decodeInbound ([0x01, 0x00, 0x01, 0x0A] ++ bytes16 (crc16 [0x01, 0x00, 0x01, 0x0A])) = .failed ∧
      decodeInbound ([0x01, 0x00, 0x04, 0x03, 0x05, 0x00, 0x03] ++
        bytes16 (crc16 [0x01, 0x00, 0x04, 0x03, 0x05, 0x00, 0x03])) = .badRequest 0x05#8) :=
  ⟨⟨by decide +kernel, by decide +kernel, _, rfl, by decide +kernel⟩, ⟨_, rfl, by decide +kernel⟩, by decide +kernel⟩

theorem test_meets_ChainStopAnswers_claims : 1 < (2 : Byte).toNat ∧
    ((waiting (.step 0)).pendingRound = some (round .waiting none false) ∧ (waiting (.step 0)).claimNumber .A = some 1#16) ∧
    (collecting.pendingRound = none ∧ collecting.claimNumber .A = none) ∧
    (let s : State := { run with ring := [round .sent none false] ++ round .waiting none false :: [] }
     s.pendingRound = none ∧ s.claimNumber .A = some 1#16) := by decide +kernel

theorem test_meets_ChainStartAnswers_survey : (run.port .A).surveyPending = false ∧
    (let s := withPort fun p => { p with surveyPending := true }
     (s.port .A).surveyPending = true ∧ (s.port .A).survey = .idle ∧ s.sleep.op = .run ∧ (s.port .A).run = .running ∧
      (s.port .A).table = NodeEntry.fresh ⟨1, 1, 0⟩ :: [] ∧ (((s.pendingSurvey .A).port .A).internal.map Order.position) = [1]) ∧
    (run.port .B).table = [] := by decide +kernel

theorem test_round_bytes : (round .missed none true).bytes =
    [0, 1, 0, 1, 5, 0, 0, 0, 0, 1, 0, 0, 0, 0, 1, 0, 2, 0, 0, 0, 0, 0, 0, 0, 0, 0, 0, 0, 0, 0, 0, 0, 1, 1, 1, 0, 0, 0, 0] := by
  decide +kernel

theorem test_meets_SampleSetsFillEntries_payload : collecting.collectingRound .A = some (round .sent none false) ∧
    (readSampleSet [0x01, 0x02, 0x01, 0x00, 0x0C, 0x80]).lists = some ([0x0C80#16], []) ∧
    (readSampleSet [0x01, 0x03, 0x01, 0x00, 0x0C]).lists = none ∧ [0x0C, 0x80] = [0x0C80#16].flatMap bytes16 ++ [].flatMap bytes16 ∧
    ([] : List Byte).length < 4 ∧ (readSampleSet [0x01, 0x02, 0x01, 0x00, 0x0C, 0x80]).localFault = true := by decide +kernel

/-- A MISSED part counts nothing, and a SENT one counts its missing node. -/
theorem test_meets_RoundsCountNodes_round :
    (let s : State := { run with ring := [round .missed none true] }
     s.record 1#16 = some (round .missed none true) ∧ (s.countRound 1#16).ports = s.ports) ∧
    (let s : State := { run with ring := [round .sent (some .complete) true] }
     s.record 1#16 = some (round .sent (some .complete) true) ∧
      ((s.countRound 1#16).port .A).table.map NodeEntry.missCount = [1]) ∧
    run.record 1#16 = none ∧ run.node .A 2 = none := by decide +kernel

theorem test_meets_ArbiterDecides_durations : run.image = some image ∧ opened.image = none ∧
    (Order.echo 1).position ≠ 0 ∧ Order.rest.position = 0 ∧ run.reserved .A .rest = 135#32 := by decide +kernel

theorem test_meets_ChannelPhasesEnd_window :
    (let s : State := { run with window := holding.window }
     s.allOpen = true ∧ s.window.armed = true ∧ s.syncWindow.window.armed = false) ∧
    (run.allOpen = true ∧ run.window.armed = false) ∧
    (let s := withChannel .K1 (closedIn .hold true) false
     s.image = some image ∧ s.allOpen = false ∧ s.window.armed = false ∧ s.syncWindow.window.expiry = some 20000#32) := by
  decide +kernel

/-- `run` in the reset that RESET# holds, and again with HSEL# low. -/
def heldInReset : State := State.afterReset run.store { run.pins with reset := .held } false 0 []

theorem test_meets_ResetsAct_held : heldInReset.held = true ∧ heldInReset.pending = [] ∧ heldInReset.heldIsShut ∧
    heldInReset.beginExchange.link.exchange.map Exchange.kind = some .shut ∧ heldInReset.beginExchange.heldIsShut := by
  refine ⟨rfl, rfl, fun _ => ⟨rfl, rfl, fun e h => ?_⟩, rfl, fun _ => ⟨rfl, rfl, fun e h => ?_⟩⟩
  · cases h
  · cases h; rfl

theorem test_meets_StartupSelects_tables : let s : State := { opened with working := some ⟨image, 1#32, .A⟩ }
    s.image = some image ∧ (s.port .A).table = [] ∧ s.sleep.op ≠ .run ∧ image.plan .B = [] ∧
      ((s.rebuildNodes .A).port .A).table.map NodeEntry.position = [1] ∧ ((s.rebuildNodes .A).port .A).surveyPending = true := by
  decide +kernel

theorem test_meets_DisconnectAnswers_channels : holding.closedOf [.neg, .pos] = [.K1] ∧ holding.closedChannels = [.K1] ∧
    ([.neg, .pos] : List Role).Nodup ∧ opened.image = none ∧ opened.channelOf .neg = none ∧ holding.channelOf .neg = some .K1 ∧
    (image.channelProfile .K1).role = .neg ∧ (∀ j, (image.channelProfile j).role = .neg → j = .K1) ∧
    (∀ k, (Image.blank.channelProfile k).role ≠ .pos) := by
  refine ⟨by decide +kernel, by decide +kernel, by decide +kernel, rfl, rfl, by decide +kernel, by decide +kernel, fun j => ?_,
    fun k => ?_⟩
  · cases j <;> decide +kernel
  · cases k <;> decide +kernel

theorem test_meets_AckTripAnswers_causes : (63 : Byte).toNat ≤ 63 ∧ 1 ≤ (16 : Byte).toNat ∧ (16 : Byte).toNat ≤ 16 ∧
    decodeCause 2 1 16 = some (.node .B 16) ∧ decodeCause 5 4 3 = some (.contactor .K4 .welded) := by decide +kernel

theorem test_meets_SuperviseAnswers_counts : holding.image = some image ∧ image.shared.faultLimit = 2 ∧
    holding.faultsAfter .early = 1 ∧ ({ holding with window := { holding.window with faults := 1 } } : State).faultsAfter .sequence = 0 ∧
    holding.wmin = 10 ∧ holding.wmax = 20 := by decide +kernel

theorem test_meets_SleepAnswers_pass : (run.port .A).holdsPass = false ∧
    ((flying (.order ⟨1, 0x20, [], .pass 7#8⟩ 3#4 35#32 85#32)).port .A).holdsPass = true := by decide +kernel

theorem test_meets_UpdateStageAnswers_records : recordCount 0 = 0 ∧ recordCount 10 = 0 ∧ 9 < (10 : Byte).toNat ∧
    (image.withRecord 9 0 [0x01, 0x00]).options = [[0x01, 0x00]] ∧ image.recordAt 1 0 = [0x02, 0x00, 0x0A, 0x01, 0x01, 0x01] := by
  decide +kernel

theorem test_meets_ReadRecordAnswers_fields : 0 < 16 ∧ 15 < 16 ∧ image.nodePlan.length = 34 ∧
    image.nodePlan.getD (0 + 16) [] = [0, 0, 0] ∧ image.nodePlan.getD 0 [] = [1, 1, 0] := by decide +kernel

end Sys2Proof.Tests
end

section
/-! SUPPORT. What a tick raises, command by command, and the state right after a power-on reset. -/

namespace Sys2Proof.Machine

/-! ### What is raised, command by command (entry 2) -/

theorem WakeInput.mem_all (n : WakeInput) : n ∈ WakeInput.all := by cases n <;> decide

/-- The condition under which a tick raises a command; no other command is raised. -/
def State.raises (s : State) : Instr → Prop
  | .resetExpiry => s.resetExpiryDue = true
  | .stepExpiry => s.stepDue = true
  | .orderTimeout c => s.timeoutDue c = true
  | .broadcastSettle c => s.settleDue c = true
  | .triggerFrameEnd c => s.triggerEndDue c = true
  | .collectionDeadline c => s.deadlineDue c = true
  | .waitingClaimWithdrawal c => s.withdrawalDue c = true
  | .lossTimerExpiry => s.lossDue = true
  | .pullInExpiry k => s.pullInDue k = true
  | .dropoutExpiry k => s.dropoutDue k = true
  | .debounceExpiry k => s.debounceDue k = true
  | .settleExpiry k => s.channelSettleDue k = true
  | .holdPwmPeriod k => s.pwmDue k = true
  | .prechargeMinimumExpiry => s.minimumDue = true
  | .prechargeMaximumExpiry => s.maximumDue = true
  | .supervisionExpiry => s.supervisionDue = true
  | .shutExpiry => s.shutDue = true
  | .patrolTimerExpiry => s.patrolDue = true
  | .oscStartEnd => s.oscDue = true
  | .nodeWakeEnd => s.nodeWakeDue = true
  | .wakeFilterExpiry n => s.wakeFilterDue n = true
  | .sensePulseStart => s.pulseStartDue = true
  | .sensePulseSample => s.pulseSampleDue = true
  | .tampFilterExpiry => s.tampFilter.due s.time = true
  | .svcFilterExpiry => s.svcFilter.due s.time = true
  | .idleExpiry => s.idleDue = true
  | .validationEnd => s.commitDue .validating = true
  | .writingEnd image => s.commitDue .writing = true ∧ image = s.staged
  | .readbackEnd => s.commitDue .verifying = true
  | .pinReset => s.pinResetDue = true
  | .startupSelectionEnd => s.selectionDue = true
  | _ => False

/-- The commands that one chain may raise. -/
theorem State.mem_dueOnChains (s : State) (i : Instr) : i ∈ s.dueOnChain .A ∨ i ∈ s.dueOnChain .B ↔
    ∃ c, i ∈ s.dueOnChain c := (exists_chain fun c => i ∈ s.dueOnChain c).symm

theorem State.mem_dueEvents (s : State) (i : Instr) : i ∈ s.dueEvents ↔ s.raises i := by
  have split : i ∈ s.dueEvents ↔ i ∈ raise s.resetExpiryDue .resetExpiry ∨ i ∈ raise s.stepDue .stepExpiry ∨
      (∃ c, i ∈ s.dueOnChain c) ∨ i ∈ raise s.lossDue .lossTimerExpiry ∨ (∃ k, i ∈ s.dueOnChannel k) ∨
      i ∈ raise s.minimumDue .prechargeMinimumExpiry ∨ i ∈ raise s.maximumDue .prechargeMaximumExpiry ∨
      i ∈ raise s.supervisionDue .supervisionExpiry ∨ i ∈ s.dueInSleep ∨
      i ∈ raise (s.tampFilter.due s.time) .tampFilterExpiry ∨ i ∈ raise (s.svcFilter.due s.time) .svcFilterExpiry ∨
      i ∈ s.dueInUpdate ∨ i ∈ raise s.pinResetDue .pinReset ∨ i ∈ raise s.selectionDue .startupSelectionEnd := by
    unfold State.dueEvents
    simp only [List.mem_append, List.mem_flatMap, ChannelId.mem_all, true_and, or_assoc, ← s.mem_dueOnChains]
  rw [split]
  cases i <;> simp [State.raises, mem_raise, State.dueOnChain, State.dueOnChannel, State.dueInSleep, State.dueInUpdate,
    WakeInput.mem_all]

theorem State.resetExpiryDue_iff (s : State) : s.resetExpiryDue = true ↔
    s.link.state = .resetting ∧ (∃ x, s.link.resetExpiry = some x ∧ reached x s.time = true) ∧ s.finalClocked = false := by
  unfold State.resetExpiryDue
  simp [expired_iff, and_assoc]

theorem State.shutDue_iff (s : State) : s.shutDue = true ↔
    s.link.state = .closing ∧ (∃ x, s.sleep.shutExpiry = some x ∧ reached x s.time = true) ∧ s.finalClocked = false := by
  unfold State.shutDue
  simp [expired_iff, and_assoc]

/-- R1, R135, R182: what a microsecond changes. -/
theorem State.passMicrosecond_eq (s : State) : s.passMicrosecond = { s with
    time := s.time + 1#32
    pins := { s.pins with reset := match s.pins.reset with | .low n => .low (min (n + 1) 10) | level => level }
    sleep := { s.sleep with patrolTimer := s.sleep.patrolTimer.map fun t => ⟨t.next, t.left - 1⟩ } } := by
  unfold State.passMicrosecond ResetPin.passMicrosecond
  cases s.pins.reset <;> rfl

/-- Entry 1: on an empty queue nothing passes while a pin reset holds the blocks. -/
theorem step_held (s : State) (hp : s.pending = []) (h : s.held = true) : step s = .next s := by
  unfold step State.tick
  rw [hp]
  exact congrArg Host.Outcome.next (if_pos h)

/-- Entries 1 to 3: otherwise a microsecond passes, and what is due joins the queue in some order. -/
theorem step_tick (s : State) (hp : s.pending = []) (h : s.held = false) : ∃ order : List Instr,
    order.Perm s.passMicrosecond.dueEvents ∧
      step s = .next { s.passMicrosecond with pending := order, free := s.free + order.length } := by
  have perm := shuffle_perm s.free s.passMicrosecond.dueEvents
  refine ⟨_, perm, ?_⟩
  have empty : s.passMicrosecond.pending = [] := hp
  have free : s.passMicrosecond.free = s.free := rfl
  unfold step State.tick
  rw [hp, perm.length_eq]
  dsimp only
  rw [if_neg (by simp [h]), empty, free, List.nil_append]

theorem later_iff (x y : Instant) : later x y = true ↔ 1 ≤ (x - y).toNat ∧ (x - y).toNat ≤ 2147483647 := by
  unfold later
  simp

/-- Settles O2: the tick of `step_tick`, and what each command raised says of the state. -/
theorem emptyQueueTicks : Obligations.EmptyQueueTicks := by
  refine ⟨fun s hp => ⟨step_held s hp, fun h => ?_⟩, ?_, fun x y n => ⟨later_iff x y, by simp [reached], rfl, rfl, rfl⟩⟩
  · obtain ⟨order, perm, e⟩ := step_tick s hp h
    exact ⟨order, perm, rfl, e⟩
  · rintro s i on part rfl rfl
    refine ⟨?_, s.passMicrosecond_eq, s.finalClocked_iff⟩
    rw [s.mem_dueEvents]
    cases i with
    | resetExpiry => exact s.resetExpiryDue_iff
    | stepExpiry => exact s.stepDue_iff
    | orderTimeout c => exact s.timeoutDue_iff c
    | broadcastSettle c => exact s.settleDue_iff c
    | triggerFrameEnd c => exact s.triggerEndDue_iff c
    | collectionDeadline c => exact s.deadlineDue_iff c
    | waitingClaimWithdrawal c => exact s.withdrawalDue_iff c
    | holdPwmPeriod k => exact s.pwmDue_iff k
    | shutExpiry => exact s.shutDue_iff
    | patrolTimerExpiry => exact s.patrolDue_iff
    | sensePulseStart => exact s.pulseStartDue_iff
    | sensePulseSample => exact s.pulseSampleDue_iff
    | pinReset => exact s.pinResetDue_iff
    | debounceExpiry k => exact expired_iff _ _
    | settleExpiry k => exact expired_iff _ _
    | wakeFilterExpiry n => exact expired_iff _ _
    | tampFilterExpiry => exact expired_iff _ _
    | svcFilterExpiry => exact expired_iff _ _
    | startupSelectionEnd => exact expired_iff _ _
    | lossTimerExpiry => simp [State.raises, State.lossDue, expired_iff]
    | pullInExpiry k => simp [State.raises, State.pullInDue, expired_iff]
    | dropoutExpiry k => simp [State.raises, State.dropoutDue, expired_iff]
    | prechargeMinimumExpiry => simp [State.raises, State.minimumDue, expired_iff, and_assoc]
    | prechargeMaximumExpiry => simp [State.raises, State.maximumDue, expired_iff]
    | supervisionExpiry => simp [State.raises, State.supervisionDue, expired_iff]
    | oscStartEnd => simp [State.raises, State.oscDue, expired_iff]
    | nodeWakeEnd => simp [State.raises, State.nodeWakeDue, expired_iff]
    | idleExpiry => simp [State.raises, State.idleDue, expired_iff]
    | validationEnd => simp [State.raises, State.commitDue, expired_iff]
    | writingEnd image => simp [State.raises, State.commitDue, expired_iff, State.staged, Image.erased, and_assoc]
    | readbackEnd => simp [State.raises, State.commitDue, expired_iff]
    | _ => exact Iff.rfl

/-! ### After a power-on reset -/

/-- Settles O3: every value is read off `State.reset`. -/
theorem resetValues : Obligations.ResetValues := by
  refine ⟨⟨rfl, rfl, rfl, rfl, rfl, rfl, rfl, rfl, rfl, rfl, rfl, rfl, rfl, rfl, rfl, rfl, rfl, rfl, rfl, rfl, rfl, rfl, rfl,
    fun k => ?_, fun c => ?_⟩, rfl, fun _ k => ?_, fun k => ?_, List.nodup_nil, ⟨rfl, rfl⟩, ⟨Nat.zero_le _, Nat.zero_le _⟩,
    Nat.zero_le _, Nat.zero_le _, List.nodup_nil, fun h => ?_⟩
  · cases k <;> exact ⟨rfl, rfl, rfl, rfl, rfl, rfl, rfl⟩
  · cases c <;> exact ⟨rfl, rfl, rfl, rfl, rfl, rfl⟩
  · cases k <;> rfl
  · cases k <;> rfl
  · exact absurd h (by decide)

end Sys2Proof.Machine
end

section
/-! SUPPORT. The survey of a chain, step by step, and the ANSWER and the timeout that bring its steps about. -/

namespace Sys2Proof.Machine

/-! ### The survey, step by step (R48 to R50) -/

theorem State.runs_iff (s : State) (c : Chain) : s.runs c = true ↔ (s.port c).run = .running := by
  unfold State.runs
  simp

theorem State.mapNode_runs (s : State) (c : Chain) (position : Nat) (f : NodeEntry → NodeEntry) :
    (s.mapNode c position f).runs c = s.runs c := by cases c <;> rfl

/-- Two changes of one entry, the first of which leaves it at its position. -/
theorem State.mapNode_mapNode (s : State) (c : Chain) (position : Nat) (f g : NodeEntry → NodeEntry)
    (h : ∀ e, (f e).position = e.position) :
    (s.mapNode c position f).mapNode c position g = s.mapNode c position fun e => g (f e) := by
  have entry : ∀ e : NodeEntry, (if (if e.position == position then f e else e).position == position then
      g (if e.position == position then f e else e) else (if e.position == position then f e else e)) =
      if e.position == position then g (f e) else e := fun e => by
    by_cases q : e.position == position
    · simp only [q, if_true, h e]
    · simp only [q, Bool.false_eq_true, if_false]
  unfold State.mapNode
  simp only [State.mapPort_eq_setPort, State.setPort_port, State.setPort_setPort, List.map_map]
  congr 2
  exact List.map_congr_left fun e _ => entry e

/-- The port with the position on one of the two lists (R49). -/
def ChainPort.listed (p : ChainPort) (position : Nat) (aligned : Bool) : ChainPort :=
  { p with
    aligned := if aligned = true then p.aligned ++ [position] else p.aligned
    notAligned := if aligned = true then p.notAligned else p.notAligned ++ [position] }

@[simp] theorem ChainPort.listed_run (p : ChainPort) (position : Nat) (aligned : Bool) :
    (p.listed position aligned).run = p.run := rfl
@[simp] theorem ChainPort.listed_table (p : ChainPort) (position : Nat) (aligned : Bool) :
    (p.listed position aligned).table = p.table := rfl

/-- R49: the position is listed, and on a chain that runs the next planned one follows, or the survey ends. -/
theorem State.surveyNext_eq (s : State) (c : Chain) (position : Nat) (aligned : Bool) :
    s.surveyNext c position aligned =
      if (s.port c).run = .running then
        match (s.port c).table.find? fun e => Decidable.decide (position < e.position) with
        | some e => s.setPort c { (s.port c).listed position aligned with
            survey := .echoing e.position, internal := (s.port c).internal ++ [Order.echo e.position] }
        | none => (s.setPort c ((s.port c).listed position aligned)).endSurvey c .complete
      else s.setPort c ((s.port c).listed position aligned) := by
  have list : (s.mapPort c fun p => if aligned then { p with aligned := p.aligned ++ [position] }
      else { p with notAligned := p.notAligned ++ [position] }) = s.setPort c ((s.port c).listed position aligned) := by
    cases aligned <;> rfl
  unfold State.surveyNext
  rw [list]
  simp only [State.runs_iff, State.setPort_port, ChainPort.listed_run, ChainPort.listed_table]
  by_cases h : (s.port c).run = .running
  · rw [if_pos h, if_pos h]
    cases (s.port c).table.find? fun e => Decidable.decide (position < e.position) with
    | none => rfl
    | some e => cases c <;> rfl
  · rw [if_neg h, if_neg h]

/-- R48: a pending survey over a plan that has a position. -/
theorem State.pendingSurvey_begins (w : State) (c : Chain) (e : NodeEntry) (rest : List NodeEntry)
    (pending : (w.port c).surveyPending = true) (idle : (w.port c).survey = .idle) (op : w.sleep.op = .run)
    (runs : (w.port c).run = .running) (table : (w.port c).table = e :: rest) :
    w.pendingSurvey c = w.setPort c { w.port c with
      surveyPending := false, aligned := [], notAligned := [], survey := .echoing e.position
      internal := (w.port c).internal ++ [Order.echo e.position] } := by
  unfold State.pendingSurvey
  rw [if_pos (by simp [State.surveyAllowed, State.runs, pending, idle, op, runs])]
  unfold State.startSurvey
  simp only [State.mapPort_eq_setPort, State.joinInternal_eq_setPort, State.setPort_port, State.setPort_setPort, table]

/-- R48: a request of the bridge that finds a survey in flight, a sleep state or a chain that does not run. -/
theorem State.requestSurvey_pending (s : State) (c : Chain)
    (h : ¬((s.port c).survey = .idle ∧ s.sleep.op = .run ∧ (s.port c).run = .running)) :
    s.requestSurvey c = s.setPort c { s.port c with surveyPending := true } := by
  unfold State.requestSurvey
  rw [if_neg]
  · rfl
  · simpa [State.surveyAllowed, State.runs, and_assoc] using h

theorem NodeEntry.become_eq (e : NodeEntry) (x : NodeState) :
    e.become x = { e with state := if e.state = .lost then .lost else x } := by
  unfold NodeEntry.become
  split
  · rename_i h
    rw [← h]
  · rfl

/-- R49: an ECHO whose holdoff is not below 0 goes on to its SET_HOLDOFF. -/
theorem State.echoAnswered_holdoff (s : State) (c : Chain) (position : Nat) (trip : Int) (runs : s.runs c = true)
    (le : latencyOf trip ≤ s.target * 10) : s.echoAnswered c position trip =
      ((s.mapNode c position fun e => { e with latency := some (BitVec.ofNat 16 (latencyOf trip)) }).mapPort c fun p =>
        { p with
          survey := .writing position
          internal := p.internal ++ [Order.setHoldoff position (BitVec.ofNat 16 (s.target * 10 - latencyOf trip))] }) := by
  have word : BitVec.ofInt 16 (((s.target * 10 : Nat) : Int) - (latencyOf trip : Int)) =
      BitVec.ofNat 16 (s.target * 10 - latencyOf trip) := by
    rw [← Int.ofNat_sub le]
    exact BitVec.ofInt_natCast ..
  unfold State.echoAnswered
  dsimp only
  rw [if_pos (by omega), if_pos (by rw [State.mapNode_runs]; exact runs), word]
  cases c <;> rfl

/-- R49: an ECHO whose holdoff is below 0. -/
theorem State.echoAnswered_late (s : State) (c : Chain) (position : Nat) (trip : Int)
    (lt : s.target * 10 < latencyOf trip) : s.echoAnswered c position trip =
      (s.mapNode c position fun e => { e with
        latency := some (BitVec.ofNat 16 (latencyOf trip)), holdoff := none
        state := if e.state = .lost then .lost else .unsurveyed }).surveyNext c position false := by
  unfold State.echoAnswered
  dsimp only
  rw [if_neg (by omega), State.mapNode_mapNode]
  · simp only [NodeEntry.become_eq]
  · exact fun _ => rfl

/-! ### An ANSWER and a timeout of an order in flight (R37) -/

/-- R37: the matching ANSWER. -/
theorem State.takeAnswer_match (s : State) (c : Chain) (o : Order) (tag : BitVec 4) (ended due : Instant) (address : Byte)
    (data : List Byte) (start : Stamp) (h : (s.port c).transaction = some (.order o tag ended due))
    (place : address.toNat = o.position) : s.takeAnswer c tag address data start =
      ((s.freeChain c).orderAnswered c o data (roundTrip ended start)).drained c := by
  unfold State.takeAnswer
  rw [h]
  exact if_pos ⟨rfl, place⟩

/-- R37: the timeout. -/
theorem exec_orderTimeout_due (s : State) (c : Chain) (o : Order) (tag : BitVec 4) (ended due : Instant) (h : s.held = false)
    (t : (s.port c).transaction = some (.order o tag ended due)) (r : reached due s.time = true) :
    exec (.orderTimeout c) s = .next (((s.freeChain c).orderTimedOut c o tag).drained c).finish := by
  rw [exec_orderTimeout s c h ((s.timeoutDue_iff c).2 ⟨o, tag, ended, due, t, r⟩)]
  unfold State.takeTimeout
  rw [t]

/-- R49: the ANSWER to an ECHO, its round trip in tenths of a microsecond (R3). -/
theorem exec_answer_echo (s : State) (c : Chain) (o : Order) (tag : BitVec 4) (ended due : Instant) (address : Byte)
    (data : List Byte) (start : Stamp) (h : s.held = false) (t : (s.port c).transaction = some (.order o tag ended due))
    (place : address.toNat = o.position) (owner : o.owner = .echo) : exec (.answer c tag address data start) s =
      .next (((s.freeChain c).echoAnswered c o.position
        ((start.instant - ended).toInt * 10 + start.tenth.val)).drained c).finish := by
  rw [exec_answer s c tag address data start h, s.takeAnswer_match c o tag ended due address data start t place]
  unfold State.orderAnswered
  rw [owner]
  rfl

/-- R49: the ANSWER to a SET_HOLDOFF. -/
theorem exec_answer_setHoldoff (s : State) (c : Chain) (o : Order) (tag : BitVec 4) (ended due : Instant) (address : Byte)
    (data : List Byte) (start : Stamp) (value : BitVec 16) (h : s.held = false)
    (t : (s.port c).transaction = some (.order o tag ended due)) (place : address.toNat = o.position)
    (owner : o.owner = .setHoldoff value) : exec (.answer c tag address data start) s =
      .next (((s.freeChain c).holdoffAnswered c o.position value).drained c).finish := by
  rw [exec_answer s c tag address data start h, s.takeAnswer_match c o tag ended due address data start t place]
  unfold State.orderAnswered
  rw [owner]

/-- R49: the timeouts of the two orders of a survey. -/
theorem exec_orderTimeout_echo (s : State) (c : Chain) (o : Order) (tag : BitVec 4) (ended due : Instant) (h : s.held = false)
    (t : (s.port c).transaction = some (.order o tag ended due)) (owner : o.owner = .echo) (r : reached due s.time = true) :
    exec (.orderTimeout c) s = .next (((s.freeChain c).echoTimedOut c o.position).drained c).finish := by
  rw [exec_orderTimeout_due s c o tag ended due h t r]
  unfold State.orderTimedOut
  rw [owner]

theorem exec_orderTimeout_setHoldoff (s : State) (c : Chain) (o : Order) (tag : BitVec 4) (ended due : Instant)
    (value : BitVec 16) (h : s.held = false) (t : (s.port c).transaction = some (.order o tag ended due))
    (owner : o.owner = .setHoldoff value) (r : reached due s.time = true) :
    exec (.orderTimeout c) s = .next (((s.freeChain c).holdoffTimedOut c o.position).drained c).finish := by
  rw [exec_orderTimeout_due s c o tag ended due h t r]
  unfold State.orderTimedOut
  rw [owner]

/-- R49: after the highest planned position the survey ends COMPLETE. -/
theorem State.surveyNext_last (s : State) (c : Chain) (position : Nat) (aligned : Bool) (runs : (s.port c).run = .running)
    (last : ∀ e ∈ (s.port c).table, e.position ≤ position) : s.surveyNext c position aligned =
      (s.setPort c ((s.port c).listed position aligned)).endSurvey c .complete := by
  have none : (s.port c).table.find? (fun e => Decidable.decide (position < e.position)) = none := by
    simpa [List.find?_eq_none] using last
  rw [s.surveyNext_eq, if_pos runs, none]

/-- Settles O28: the survey's steps are the lemmas above, and an ANSWER or a timeout in flight brings them about. -/
theorem surveySteps : Obligations.SurveySteps := by
  refine ⟨⟨fun s c position trip runs => ⟨rfl, s.echoAnswered_holdoff c position trip runs, fun e h => if_neg h,
    fun e h => if_pos h, rfl, fun _ => rfl, fun e aligned next => ?_⟩, fun s u c position trip aligned =>
    ⟨s.echoAnswered_late c position trip, ?_, ?_, s.requestSurvey_pending c, ?_⟩⟩,
    fun e state s => ⟨rfl, rfl, fun _ => rfl, fun i h => ?_, fun _ _ => rfl⟩⟩
  · rw [s.surveyNext_eq, if_pos ((s.runs_iff c).1 runs), next]
    rfl
  · unfold State.holdoffTimedOut
    simp only [NodeEntry.become_eq]
  · rintro rfl
    refine ⟨fun idle => by rw [s.surveyNext_eq, if_neg idle]; rfl, fun runs last w hw => ?_⟩
    have ended : s.surveyNext c position aligned = w.pendingSurvey c := by
      rw [s.surveyNext_last c position aligned runs last, hw]
      rfl
    have port : w.port c = { (s.port c).listed position aligned with
        survey := .idle
        lastSurvey := some ⟨((s.port c).listed position aligned).aligned,
          ((s.port c).listed position aligned).notAligned, .complete⟩ } := by
      rw [hw]
      cases c <;> rfl
    have op : w.sleep.op = s.sleep.op := by rw [hw]; rfl
    refine ⟨fun h => ?_, fun e rest pending run table => ?_⟩
    · rw [ended]
      exact w.pendingSurvey_none c _ port.symm (h.imp id fun h => .inr (.inl (op ▸ h)))
    · rw [ended, w.pendingSurvey_begins c e rest (by rw [port]; exact pending) (by rw [port]) (op.trans run)
        (by rw [port]; exact runs) (by rw [port]; exact table)]
  · rintro t e due o tag address data start h place tx rfl
    exact ⟨fun owner => ⟨exec_answer_echo s c o tag e due address data start h tx place owner,
        exec_orderTimeout_echo s c o tag e due h tx owner⟩,
      fun value owner => ⟨exec_answer_setHoldoff s c o tag e due address data start value h tx place owner,
        exec_orderTimeout_setHoldoff s c o tag e due value h tx owner⟩⟩
  · unfold State.target
    rw [h]

end Sys2Proof.Machine
end

section
/-! SUPPORT. How an order in flight ends: by its ANSWER, its timeout or its settle instant. -/

namespace Sys2Proof.Machine

/-! ### The end of an order in flight (R37 to R39, R41) -/

/-- R41: the ANSWER to a PASS is relayed. -/
theorem exec_answer_pass (s : State) (c : Chain) (o : Order) (tag : BitVec 4) (ended due : Instant) (address : Byte)
    (data : List Byte) (start : Stamp) (x : Byte) (h : s.held = false)
    (t : (s.port c).transaction = some (.order o tag ended due)) (place : address.toNat = o.position)
    (owner : o.owner = .pass x) : exec (.answer c tag address data start) s =
      .next (((s.freeChain c).offer (.relay x c o.position false data)).drained c).finish := by
  rw [exec_answer s c tag address data start h, s.takeAnswer_match c o tag ended due address data start t place]
  unfold State.orderAnswered
  rw [owner]
  rfl

/-- R39, R41: the timeout of a PASS keeps its tag and position, and answers NO_ANSWER. -/
theorem exec_orderTimeout_pass (s : State) (c : Chain) (o : Order) (tag : BitVec 4) (ended due : Instant) (x : Byte)
    (h : s.held = false) (t : (s.port c).transaction = some (.order o tag ended due)) (owner : o.owner = .pass x)
    (r : reached due s.time = true) : exec (.orderTimeout c) s =
      .next (((s.setPort c { s.port c with
        transaction := none, kept := (s.port c).kept ++ [⟨tag, o.position, x⟩] }).offer (.reply x .noAnswer .none)).drained
          c).finish := by
  rw [exec_orderTimeout_due s c o tag ended due h t r]
  unfold State.orderTimedOut State.freeChain
  rw [owner]
  simp only [State.mapPort_eq_setPort, State.setPort_port, State.setPort_setPort, State.reply_eq_offer]

/-- R38: the settle instant of a broadcast. -/
theorem exec_broadcastSettle_due (s : State) (c : Chain) (o : Order) (settle : Instant) (h : s.held = false)
    (t : (s.port c).transaction = some (.broadcast o settle)) (r : reached settle s.time = true) :
    exec (.broadcastSettle c) s = .next (((s.freeChain c).broadcastSettles c o).drained c).finish := by
  rw [exec_broadcastSettle s c h ((s.settleDue_iff c).2 ⟨o, settle, t, r⟩)]
  unfold State.takeSettle
  rw [t]

/-- R39: an ANSWER that does not match what is in flight is late, whatever that is. -/
theorem State.takeAnswer_late (s : State) (c : Chain) (tag : BitVec 4) (address : Byte) (data : List Byte) (start : Stamp)
    (other : ∀ o t e due, (s.port c).transaction = some (.order o t e due) → tag ≠ t ∨ address.toNat ≠ o.position) :
    s.takeAnswer c tag address data start = s.lateAnswer c tag address data := by
  unfold State.takeAnswer
  cases t : (s.port c).transaction with
  | none => rfl
  | some x =>
    cases x with
    | trigger => rfl
    | broadcast o settle => rfl
    | order o tag' ended due => exact if_neg fun ⟨h, g⟩ => (other o tag' ended due t).elim (· h) (· g)

/-- R39: a late ANSWER whose tag and position are kept is relayed as late, and they are kept no more. -/
theorem State.lateAnswer_kept (s : State) (c : Chain) (tag : BitVec 4) (address : Byte) (data : List Byte) (k : KeptTag)
    (h : ((s.port c).kept.find? fun k => k.tag == tag && k.position == address.toNat) = some k) :
    s.lateAnswer c tag address data = (s.setPort c { s.port c with
      kept := (s.port c).kept.filter fun k => !(k.tag == tag && k.position == address.toNat) }).offer
        (.relay k.passTag c k.position true data) := by
  unfold State.lateAnswer KeptTag.fits
  rw [h]
  rfl

theorem State.lateAnswer_discarded (s : State) (c : Chain) (tag : BitVec 4) (address : Byte) (data : List Byte)
    (h : ∀ k ∈ (s.port c).kept, k.tag ≠ tag ∨ k.position ≠ address.toNat) : s.lateAnswer c tag address data = s := by
  have none : ((s.port c).kept.find? fun k => k.fits tag address) = none := by
    rw [List.find?_eq_none]
    intro k hk
    have := h k hk
    simpa [KeptTag.fits, imp_iff_not_or] using this
  unfold State.lateAnswer
  rw [none]

/-- Settles O27: by what is in flight and by its owner. -/
theorem ordersEnd : Obligations.OrdersEnd := by
  refine ⟨?_, fun u c => ⟨rfl, rfl⟩⟩
  rintro s c u h rfl
  refine ⟨fun o t e due address data start tx place => ⟨fun tag owner => ?_, fun owner => ?_, fun v owner => ?_⟩,
    fun o settle tx r => ?_, fun t address data start other => ⟨fun k hk => ?_, fun hk => ?_⟩⟩
  · exact ⟨exec_answer_pass s c o t e due address data start tag h tx place owner,
      exec_orderTimeout_pass s c o t e due tag h tx owner⟩
  · exact ⟨exec_answer_echo s c o t e due address data start h tx place owner,
      exec_orderTimeout_echo s c o t e due h tx owner⟩
  · exact ⟨exec_answer_setHoldoff s c o t e due address data start v h tx place owner,
      exec_orderTimeout_setHoldoff s c o t e due v h tx owner⟩
  · rw [exec_broadcastSettle_due s c o settle h tx r]
    unfold State.broadcastSettles
    refine ⟨fun tag owner => ?_, fun owner => ?_, fun owner => ?_⟩ <;> rw [owner] <;> rfl
  · rw [exec_answer s c t address data start h, s.takeAnswer_late c t address data start other,
      s.lateAnswer_kept c t address data k hk]
    rfl
  · rw [exec_answer s c t address data start h, s.takeAnswer_late c t address data start other,
      s.lateAnswer_discarded c t address data hk]

end Sys2Proof.Machine
end

section
/-! SUPPORT. BRIDGE_RESET: the request, its expiry, and the end of the exchange that clocks its DONE out. -/

namespace Sys2Proof.Machine

/-! ### BRIDGE_RESET, its exchange and its expiry (R181) -/

theorem State.markReported_frame (s : State) (f : Outbound) : ∃ ring, s.markReported f = { s with ring := ring } := by
  cases f <;> exact ⟨_, rfl⟩

/-- R178: settling the head frame writes the queue and the ring, and no more. -/
theorem State.settleExchange_frame (s : State) (e : Exchange) (n : Nat) : ∃ link ring,
    link.state = s.link.state ∧ link.exchange = s.link.exchange ∧
      s.settleExchange e n = { s with link := link, ring := ring } := by
  unfold State.settleExchange
  cases e.frame with
  | none => exact ⟨_, _, rfl, rfl, rfl⟩
  | some q =>
    dsimp only
    split
    · obtain ⟨ring, h⟩ := ({ s with link := s.link.depart q } : State).markReported_frame q.frame
      exact ⟨s.link.depart q, ring, rfl, rfl, h⟩
    · exact ⟨_, _, rfl, rfl, rfl⟩

/-- R175: a link that is not OPEN takes no frame. -/
theorem State.takeInbound_notOpen (s : State) (f : State → State) (h : s.link.state ≠ .opened) : ∃ link,
    link.state = s.link.state ∧ link.exchange = s.link.exchange ∧ s.takeInbound f = { s with link := link } := by
  unfold State.takeInbound
  split
  · exact ⟨_, rfl, rfl, rfl⟩
  · rw [if_neg (by simp [HostLink.takes, h])]
    exact ⟨s.link.discard, rfl, rfl, rfl⟩

theorem State.judgeInbound_notOpen (s : State) (b : List Byte) (h : s.link.state ≠ .opened) : ∃ link,
    link.state = s.link.state ∧ link.exchange = s.link.exchange ∧ s.judgeInbound b = { s with link := link } := by
  unfold State.judgeInbound
  cases decodeInbound b with
  | none => exact ⟨s.link.noInbound, rfl, rfl, rfl⟩
  | failed => exact ⟨s.link.checkFailed, rfl, rfl, rfl⟩
  | badRequest tag => exact s.takeInbound_notOpen _ h
  | request i => exact s.takeInbound_notOpen _ h

/-- R181: an exchange that ends in RESETTING: what it settles and judges changes the link and the ring alone, and the reset follows
where it has clocked the final frame out whole. -/
theorem State.endExchange_resetting (s : State) (b : List Byte) (e : Exchange) (he : s.link.exchange = some e)
    (live : e.kind = .live) (h : s.link.state = .resetting) : ∃ link ring, link.state = .resetting ∧ link.exchange = none ∧
      s.endExchange b = if e.clockedFinal b.length = true then
        ({ s with link := link, ring := ring } : State).requestReset else { s with link := link, ring := ring } := by
  obtain ⟨settled, ring, state, exchange, settles⟩ :=
    ({ s with link := { s.link with exchange := none } } : State).settleExchange_frame e b.length
  have resetting : settled.state = .resetting := state.trans h
  obtain ⟨judged, state', exchange', judges⟩ :=
    ({ s with link := settled, ring := ring } : State).judgeInbound_notOpen b
      (fun g => absurd (resetting.symm.trans g) (by simp))
  refine ⟨judged, ring, state'.trans resetting, exchange'.trans exchange, ?_⟩
  unfold State.endExchange
  rw [he]
  dsimp only
  rw [live]
  dsimp only
  rw [settles, judges]
  split
  · unfold State.afterFinal
    rw [show judged.state = .resetting from state'.trans resetting]
  · rfl

/-- R181: BRIDGE_RESET taken. -/
theorem State.requestBridgeReset_taken (s : State) (tag : Byte) (h : s.linkReady) (all : s.allOpen = true)
    (idle : s.sequencer.state = .idle) : s.taken.requestBridgeReset tag = { s.taken with link := { s.taken.link with
        queue := s.link.queue ++ [⟨.reply tag .done .none, true⟩], state := .resetting
        resetExpiry := some (s.time + 50000#32) } } := by
  have accepts : s.taken.link.accepts (.reply tag .done .none) = true := by
    unfold HostLink.accepts
    rw [show s.taken.link.state = .opened from h.2.1]
    rfl
  unfold State.requestBridgeReset State.replyFinal HostLink.offer
  rw [if_pos ⟨all, idle⟩, if_pos accepts]
  rfl

/-- R181: the reset expiry, by whether the exchange in progress has clocked the DONE out whole. -/
theorem exec_resetExpiry_resetting (s : State) (due : Instant) (h : s.held = false) (state : s.link.state = .resetting)
    (expiry : s.link.resetExpiry = some due) (r : reached due s.time = true) :
    (s.finalClocked = false → exec .resetExpiry s = .next s.requestReset) ∧
      (s.finalClocked = true → exec .resetExpiry s = .next s) := by
  refine ⟨fun f => exec_resetExpiry s h (s.resetExpiryDue_iff.2 ⟨state, ⟨due, expiry, r⟩, f⟩), fun f => ?_⟩
  have early : s.resetExpiryDue = false := by simp [State.resetExpiryDue, f]
  exact congrArg Host.Outcome.next (s.timed_early _ _ early)

theorem Exchange.clockedFinal_eq (e : Exchange) (q : Queued) (n : Nat) (h : e.frame = some q) (final : q.final = true) :
    e.clockedFinal n = e.whole n := by
  unfold Exchange.clockedFinal
  rw [h]
  simp [final]

/-- Settles O14: the request, the expiry, and the end of the exchange. -/
theorem bridgeResetAnswers : Obligations.BridgeResetAnswers := by
  refine fun s tag => ⟨fun ready ⟨all, idle⟩ => ?_, fun ready refused => ?_, ?_, ?_⟩
  · rw [exec_request (.bridgeReset tag) s rfl ready]
    exact congrArg Host.Outcome.next (s.requestBridgeReset_taken tag ready all idle)
  · rw [exec_request (.bridgeReset tag) s rfl ready, ← s.taken_reply ready]
    exact congrArg Host.Outcome.next (if_neg refused)
  · rintro due clocked h rfl state expiry r
    obtain ⟨resets, waits⟩ := exec_resetExpiry_resetting s due h state expiry r
    exact ⟨fun c => resets (Bool.eq_false_iff.2 fun f => c (s.finalClocked_iff.1 f)),
      fun c => waits (s.finalClocked_iff.2 c)⟩
  · intro b e q he live frame final state
    obtain ⟨link, ring, hs, hx, ends⟩ := s.endExchange_resetting b e he live state
    rw [e.clockedFinal_eq q _ frame final] at ends
    refine ⟨fun whole => ?_, fun cut t ht => ?_⟩
    · rw [if_pos whole] at ends
      refine congrArg Host.Outcome.next (ends.trans ?_)
      unfold State.requestReset State.selected
      rw [hx]
      rfl
    · rw [if_neg (by simp [cut])] at ends
      have : t = { s with link := link, ring := ring } := (Host.Outcome.next.inj ht).symm.trans ends
      rw [this]
      exact ⟨hs, rfl⟩

end Sys2Proof.Machine
end

section
/-! SUPPORT. POR and RESET#, and what the commands do while a pin reset holds the blocks. -/

namespace Sys2Proof.Machine

/-! ### POR and RESET# (R2, R182) -/

theorem State.held_iff (s : State) : s.held = true ↔ s.pins.reset = .held := by
  unfold State.held
  simp

/-- R2: POR with RESET# high keeps the levels at the pins. -/
theorem exec_por_high (s : State) (h : s.pins.reset = .high) :
    exec .por s = .next (State.afterReset s.store s.pins s.link.exchange.isSome s.free s.pending) := by
  have pins : ({ s.pins with reset := s.pins.reset.powered } : Pins) = s.pins := by rw [h, ResetPin.powered, ← h]
  show Host.Outcome.next s.powerOn = _
  unfold State.powerOn
  rw [pins]
  rfl

/-- Entry 30: otherwise RESET# counts its 10 µs from the start. -/
theorem exec_por_low (s : State) (h : s.pins.reset ≠ .high) : exec .por s =
    .next (State.afterReset s.store { s.pins with reset := .low 0 } s.link.exchange.isSome s.free s.pending) := by
  have low : s.pins.reset.powered = .low 0 := by
    cases r : s.pins.reset with
    | high => exact absurd r h
    | low n => rfl
    | held => rfl
  show Host.Outcome.next s.powerOn = _
  unfold State.powerOn
  rw [low]
  rfl

theorem exec_resetLow_of (s : State) (h : s.pins.reset = .high) :
    exec .resetLow s = .next { s with pins := { s.pins with reset := .low 0 } } := by
  show Host.Outcome.next s.resetGoesLow = _
  unfold State.resetGoesLow
  rw [h]

/-- R182: RESET# that is low already. -/
theorem exec_resetLow_low (s : State) (h : s.pins.reset ≠ .high) : exec .resetLow s = .next s := by
  show Host.Outcome.next s.resetGoesLow = _
  unfold State.resetGoesLow
  cases r : s.pins.reset with
  | high => exact absurd r h
  | low n => rfl
  | held => rfl

/-- R182: what the return of RESET# does, by how long it has been low. -/
theorem exec_resetHigh_eq (s : State) : exec .resetHigh s = .next (match s.pins.reset with
    | .high => s
    | .low _ => { s with pins := { s.pins with reset := .high } }
    | .held => State.afterReset s.store { s.pins with reset := .high } s.link.exchange.isSome s.free s.pending) := by
  show Host.Outcome.next s.resetGoesHigh = _
  unfold State.resetGoesHigh
  cases s.pins.reset <;> rfl

theorem exec_pinReset_early (s : State) (n : Nat) (h : s.pins.reset = .low n) (lt : n < 10) :
    exec .pinReset s = .next s := by
  have early : s.pinResetDue = false := by simp [State.pinResetDue, h, lt]
  exact congrArg Host.Outcome.next (s.timed_early _ _ early)

theorem State.kdr_high (s : State) (k : ChannelId) (h : s.kdr k = true) : s.pins.reset = .high := by
  unfold State.kdr at h
  simpa using (Bool.and_eq_true_iff.1 h).2

/-! ### While the blocks are held (R182, entry 4) -/

theorem PerWake.set_get {α : Type} (p : PerWake α) (n : WakeInput) : p.set n (p.get n) = p := by cases n <;> rfl

/-- A change of the pins that leaves RESET# held does nothing further. -/
theorem State.unlessHeld_pins (s : State) (p : Pins) (f : State → State) (h : p.reset = .held) :
    ({ s with pins := p } : State).unlessHeld f = { s with pins := p } :=
  if_pos ((State.held_iff { s with pins := p }).2 h)

theorem exec_wakeInputChange_held (s : State) (n : WakeInput) (high : Bool) (h : s.held = true) :
    exec (.wakeInputChange n high) s = .next { s with pins := { s.pins with wake := s.pins.wake.set n high } } := by
  show Host.Outcome.next (s.wakeInputChanges n high) = _
  unfold State.wakeInputChanges
  split
  · rename_i same
    rw [← same, PerWake.set_get]
  · exact congrArg Host.Outcome.next (s.unlessHeld_pins { s.pins with wake := s.pins.wake.set n high } _ (s.held_iff.1 h))

theorem exec_tampInputChange_held (s : State) (active : Bool) (h : s.held = true) :
    exec (.tampInputChange active) s = .next { s with pins := { s.pins with tamp := active } } := by
  show Host.Outcome.next (s.tampChanges active) = _
  unfold State.tampChanges
  split
  · rename_i same
    rw [← same]
  · exact congrArg Host.Outcome.next (s.unlessHeld_pins { s.pins with tamp := active } _ (s.held_iff.1 h))

theorem exec_svcInputChange_held (s : State) (active : Bool) (h : s.held = true) :
    exec (.svcInputChange active) s = .next { s with pins := { s.pins with svc := active } } := by
  show Host.Outcome.next (s.svcChanges active) = _
  unfold State.svcChanges
  split
  · rename_i same
    rw [← same]
  · exact congrArg Host.Outcome.next (s.unlessHeld_pins { s.pins with svc := active } _ (s.held_iff.1 h))

/-- Every other command leaves blocks that are held as they are. -/
theorem exec_held_other (i : Instr) (s : State) (h : s.held = true) (por : i ≠ .por) (high : i ≠ .resetHigh)
    (begin_ : i ≠ .exchangeBegin) (end_ : ∀ b, i ≠ .exchangeEnd b) (feedback : ∀ k b, i ≠ .feedbackChange k b)
    (wake : ∀ n b, i ≠ .wakeInputChange n b) (tamp : ∀ b, i ≠ .tampInputChange b) (svc : ∀ b, i ≠ .svcInputChange b) :
    exec i s = .next s := by
  cases i with
  | por => exact absurd rfl por
  | resetHigh => exact absurd rfl high
  | exchangeBegin => exact absurd rfl begin_
  | exchangeEnd b => exact absurd rfl (end_ b)
  | feedbackChange k b => exact absurd rfl (feedback k b)
  | wakeInputChange n b => exact absurd rfl (wake n b)
  | tampInputChange b => exact absurd rfl (tamp b)
  | svcInputChange b => exact absurd rfl (svc b)
  | resetLow => exact exec_resetLow_low s (by rw [s.held_iff.1 h]; simp)
  | _ => exact congrArg Host.Outcome.next (if_pos h)

/-- Entry 29: the end of an exchange of a SHUT link ends it, and no more. -/
theorem State.endExchange_shut (s : State) (b : List Byte) (h : ∀ e, s.link.exchange = some e → e.kind = .shut) :
    s.endExchange b = { s with link := { s.link with exchange := none } } := by
  unfold State.endExchange
  cases x : s.link.exchange with
  | none => dsimp only; rw [← x]
  | some e => dsimp only; rw [h e x]

/-- Settles O38: the resets by the level of RESET#, and the commands while the blocks are held. -/
theorem resetsAct : Obligations.ResetsAct := by
  refine ⟨fun s => ⟨exec_por_high s, exec_por_low s, fun high => ⟨exec_resetLow_of s high, ?_⟩, fun n low => ?_, fun held => ?_,
    s.kdr_high, s.hsdo_of_low, fun _ _ _ _ _ => rfl⟩, ?_⟩
  · rw [exec_resetHigh_eq, high]
  · have free : s.held = false := by simp [State.held, low]
    refine ⟨?_, exec_resetLow_low s (by simp [low]), by rw [exec_resetHigh_eq, low], exec_pinReset_early s n low, ?_⟩
    · rw [s.passMicrosecond_eq, low]
    · rintro u le rfl
      exact exec_pinReset s free (s.pinResetDue_iff.2 ⟨n, low, le⟩)
  · exact ⟨exec_resetLow_low s (by simp [held]), by rw [exec_resetHigh_eq, held]⟩
  · rintro s pins h rfl
    refine ⟨fun k closed => ?_, fun n high => exec_wakeInputChange_held s n high h,
      fun active => ⟨exec_tampInputChange_held s active h, exec_svcInputChange_held s active h⟩,
      fun i por high begin_ end_ feedback wake tamp svc => exec_held_other i s h por high begin_ end_ feedback wake tamp svc,
      fun shut => ?_, fun empty => step_held s empty h, fun c tenth b bit => ⟨if_pos h, if_pos h, if_pos h, if_pos h⟩⟩
    · exact congrArg Host.Outcome.next (s.unlessHeld_pins { s.pins with kfb := s.pins.kfb.set k closed } _ (s.held_iff.1 h))
    · obtain ⟨link, op, kind⟩ := shut h
      exact ⟨congrArg Host.Outcome.next (s.beginExchange_unconfigured link op),
        fun b => congrArg Host.Outcome.next (s.endExchange_shut b kind)⟩

end Sys2Proof.Machine
end

section
/-! SUPPORT. The end of an event: what it may write, and its stages. -/

namespace Sys2Proof.Machine

/-! ### What the end of an event may write (R34, R35) -/

/-- The state differs in the oscillator, the cursor, the rounds, the ports, the captures, the channels and the Sleep Controller alone. -/
def State.EndsAs (s t : State) : Prop :=
  ∃ (oscillator : Bool) (cursor : Cursor) (pendingRound : Option RoundRecord) (ports : PerChain ChainPort)
    (ring : List RoundRecord) (captures : CaptureUnit) (channels : PerChannel Channel) (sleep : SleepController)
    (work : SleepWork), t = { s with
      oscillator := oscillator, cursor := cursor, pendingRound := pendingRound, ports := ports, ring := ring
      captures := captures, channels := channels, sleep := sleep, sleepWork := work }

theorem State.EndsAs.refl (s : State) : s.EndsAs s := ⟨_, _, _, _, _, _, _, _, _, rfl⟩

theorem State.EndsAs.trans {s t u : State} (h : s.EndsAs t) (g : t.EndsAs u) : s.EndsAs u := by
  obtain ⟨_, _, _, _, _, _, _, _, _, rfl⟩ := h
  obtain ⟨_, _, _, _, _, _, _, _, _, rfl⟩ := g
  exact ⟨_, _, _, _, _, _, _, _, _, rfl⟩

theorem State.placeRound_endsAs (s : State) (r : RoundRecord) : s.EndsAs (s.placeRound r) := by
  obtain ⟨ring, captures, h⟩ := s.placeRound_frame r
  rw [h]
  exact ⟨_, _, _, _, _, _, _, _, _, rfl⟩

theorem State.setPort_endsAs (s : State) (c : Chain) (p : ChainPort) : s.EndsAs (s.setPort c p) :=
  ⟨_, _, _, _, _, _, _, _, _, rfl⟩

theorem State.grantClaim_endsAs (s : State) (c : Chain) : s.EndsAs (s.grantClaim c) := by
  delta State.grantClaim
  extract_lets send
  have unplaced : s.EndsAs { s with pendingRound := none } := ⟨_, _, _, _, _, _, _, _, _, rfl⟩
  split
  · split
    · exact unplaced.trans ((State.placeRound_endsAs _ _).trans (State.setPort_endsAs _ c _))
    · exact .refl s
  · split
    · exact ⟨_, _, _, _, _, _, _, _, _, rfl⟩
    · exact .refl s

theorem State.grantOrder_endsAs (s : State) (c : Chain) (o : Order) : s.EndsAs (s.grantOrder c o) := by
  delta State.grantOrder
  extract_lets ended
  split <;> exact s.setPort_endsAs c _

theorem State.grantInternal_endsAs (s : State) (c : Chain) (o : Order) : s.EndsAs (s.grantInternal c o) :=
  (s.setPort_endsAs c _).trans (State.grantOrder_endsAs _ c o)

theorem State.grantForward_endsAs (s : State) (c : Chain) (o : Order) : s.EndsAs (s.grantForward c o) :=
  (s.setPort_endsAs c _).trans (State.grantOrder_endsAs _ c o)

theorem State.arbitrate_endsAs (s : State) (c : Chain) : s.EndsAs (s.arbitrate c) := by
  unfold State.arbitrate
  split
  · delta State.decide
    extract_lets p
    split
    · exact s.grantClaim_endsAs c
    · split
      · split
        · exact s.grantForward_endsAs c _
        · exact s.grantInternal_endsAs c _
      · exact s.grantInternal_endsAs c _
      · exact s.grantForward_endsAs c _
      · exact .refl s
  · exact .refl s

theorem State.arbitrateBoth_endsAs (s : State) : s.EndsAs s.arbitrateBoth :=
  (s.arbitrate_endsAs .A).trans (State.arbitrate_endsAs _ .B)

/-! ### The cursor, the RESTs and ASLEEP (R8, R140, R141) -/

/-- R8: the STOPPING cursor stops once no claim waits and no round is COLLECTING. -/
def State.cursorSettled (s : State) : State := { s with cursor := { s.cursor with
  state := if s.cursor.state = .stopping ∧ s.pendingRound = none ∧ ∀ r ∈ s.ring, r.closed = true then .stopped
    else s.cursor.state } }

theorem State.roundsQuiet_iff (s : State) :
    s.roundsQuiet = true ↔ s.pendingRound = none ∧ ∀ r ∈ s.ring, r.closed = true := by
  unfold State.roundsQuiet
  simp

/-- R140: in the draining phase of ENTERING a REST joins each RUNNING chain, and is awaited there. -/
def State.restSent (s : State) (on : Chain → Bool) : State := { s with
  sleep := { s.sleep with phase := some .resting }
  ports := ⟨{ s.ports.a with internal := s.ports.a.internal ++ if on .A then [⟨0, 0xF2#8, [], .rest⟩] else [] },
    { s.ports.b with internal := s.ports.b.internal ++ if on .B then [⟨0, 0xF2#8, [], .rest⟩] else [] }⟩
  sleepWork := { s.sleepWork with awaiting := ⟨s.sleepWork.awaiting.a || on .A, s.sleepWork.awaiting.b || on .B⟩ } }

theorem State.settleCursor_eq (s : State) : s.settleCursor =
    if s.sleep.op = .entering ∧ s.sleep.phase = some .draining ∧ s.cursorSettled.cursor.state = .stopped then
      (s.cursorSettled.restSent s.runs).arbitrateBoth
    else s.cursorSettled := by
  have settled : (if s.cursor.state = .stopping ∧ s.roundsQuiet then { s with cursor := { s.cursor with state := .stopped } }
      else s) = s.cursorSettled := by
    unfold State.cursorSettled
    simp only [s.roundsQuiet_iff]
    split <;> rfl
  have rest : (s.cursorSettled.setSleep fun x => { x with phase := some .resting }).broadcast .rest
      s.cursorSettled.runningChains = s.cursorSettled.restSent s.runs := State.broadcast_eq _ _ s.runs
  unfold State.settleCursor
  dsimp only
  rw [settled, rest]
  rfl

theorem State.settleCursor_endsAs (s : State) : s.EndsAs s.settleCursor := by
  have settled : s.EndsAs s.cursorSettled := ⟨_, _, _, _, _, _, _, _, _, rfl⟩
  have rest : s.cursorSettled.EndsAs (s.cursorSettled.restSent s.runs) := ⟨_, _, _, _, _, _, _, _, _, rfl⟩
  rw [s.settleCursor_eq]
  split
  · exact settled.trans (rest.trans (State.arbitrateBoth_endsAs _))
  · exact settled

theorem State.fallAsleep_endsAs (s : State) : s.EndsAs s.fallAsleep := by
  delta State.fallAsleep
  extract_lets s1 s2
  split <;> exact ⟨_, _, _, _, _, _, _, _, _, rfl⟩

theorem State.finish_endsAs (s : State) : s.EndsAs s.finish := by
  have settled : s.EndsAs s.arbitrateBoth.settleCursor := s.arbitrateBoth_endsAs.trans (State.settleCursor_endsAs _)
  delta State.finish
  extract_lets w
  split
  · exact settled.trans w.fallAsleep_endsAs
  · exact settled

/-- R102: ASLEEP ends the debounce of every channel, and changes no channel besides. -/
theorem State.fallAsleep_debounce (s : State) (k : ChannelId) :
    s.fallAsleep.channel k = { s.channel k with debounceExpiry := none } := by
  delta State.fallAsleep
  extract_lets s1 s2
  have sampling : s2.channel k = { s.channel k with debounceExpiry := none } := by cases k <;> rfl
  split <;> exact sampling

theorem State.finish_debounce (s : State) (k : ChannelId) :
    ∃ debounce, s.finish.channel k = { s.channel k with debounceExpiry := debounce } := by
  have same : s.arbitrateBoth.settleCursor.channel k = s.channel k := by
    unfold State.channel
    rw [State.settleCursor_channels, State.arbitrateBoth_channels]
  unfold State.finish
  dsimp only
  split
  · exact ⟨none, by rw [State.fallAsleep_debounce, same]⟩
  · exact ⟨(s.channel k).debounceExpiry, same⟩

theorem State.arbitrate_none (s : State) (c : Chain) (h : s.runs c = false ∨ (s.port c).transaction ≠ none) :
    s.arbitrate c = s := by
  refine if_neg fun g => ?_
  rw [Bool.and_eq_true, Option.isNone_iff_eq_none] at g
  rcases h with h | h
  · simp [h] at g
  · exact h g.2

/-- R34, R35: nothing is left to decide or to settle. -/
theorem State.finish_none (s : State) (chains : ∀ c, s.runs c = false ∨ (s.port c).transaction ≠ none)
    (cursor : s.cursor.state ≠ .stopping) (op : s.sleep.op ≠ .entering) : s.finish = s := by
  have arbiters : s.arbitrateBoth = s := by
    unfold State.arbitrateBoth
    rw [s.arbitrate_none .A (chains .A), s.arbitrate_none .B (chains .B)]
  have settled : s.cursorSettled = s := by
    unfold State.cursorSettled
    rw [if_neg fun h => cursor h.1]
  have stays : s.settleCursor = s := by
    rw [s.settleCursor_eq, settled]
    exact if_neg fun h => op h.1
  unfold State.finish
  rw [arbiters, stays]
  exact if_neg (by simp [State.asleepReached, op])

/-- R141: the conditions of ASLEEP. -/
theorem State.asleepReached_iff (w : State) : w.asleepReached = true ↔ w.sleep.op = .entering ∧
    w.sleep.phase = some .resting ∧ w.cursor.state = .stopped ∧ w.sleepWork.awaiting = .both false ∧
    w.link.state = .shut := by
  have awaiting : w.broadcastsEnded = true ↔ w.sleepWork.awaiting = .both false := by
    unfold State.broadcastsEnded
    rcases w.sleepWork.awaiting with ⟨a, b⟩
    simp [PerChain.both]
  unfold State.asleepReached
  simp only [Bool.and_eq_true, awaiting, beq_iff_eq, and_assoc]

/-- R141: the patrol timer starts where the patrol chains are not NONE. -/
theorem State.startPatrolTimer_eq (s : State) (i : Image) (h : s.image = some i) : s.startPatrolTimer =
    if i.patrolTable.chains = [] then none else
      some ⟨s.time + micros (i.patrolTable.interval * 1000000), i.patrolTable.interval * 1000000⟩ := by
  unfold State.startPatrolTimer
  rw [s.patrol_of_image h]
  simp only [List.isEmpty_iff]
  rfl

/-- R141: ASLEEP, but for the causes that may be latched. -/
def State.slept (s : State) (timer : Option PatrolTimer) : State := { s with
  oscillator := false
  channels := ⟨{ s.channels.k1 with debounceExpiry := none }, { s.channels.k2 with debounceExpiry := none },
    { s.channels.k3 with debounceExpiry := none }, { s.channels.k4 with debounceExpiry := none }⟩
  sleep := { s.sleep with op := .asleep, phase := none, sleepInstant := some s.time, patrolTimer := timer } }

theorem State.fallAsleep_eq (s : State) : s.fallAsleep =
    if s.sleep.latched = .empty then s.slept s.startPatrolTimer else (s.slept s.startPatrolTimer).wakeFromAsleep := by
  have latched : (s.slept s.startPatrolTimer).sleep.latched.isEmpty = true ↔ s.sleep.latched = .empty := beq_iff_eq
  show (if (s.slept s.startPatrolTimer).sleep.latched.isEmpty = true then s.slept s.startPatrolTimer
    else (s.slept s.startPatrolTimer).wakeFromAsleep) = _
  simp only [latched]

/-- Settles O15: what the end of an event may write, and its stages by name. -/
theorem endOfEventFrame : Obligations.EndOfEventFrame := by
  refine ⟨fun s => ⟨s.finish_endsAs, s.finish_debounce, s.finish_none⟩, ?_, ?_, ?_⟩
  · rintro s u v on hon rfl rfl
    have runs : s.runs = on := funext fun c => Bool.eq_iff_iff.2 ((s.runs_iff c).trans (hon c).symm)
    exact ⟨fun h => runs ▸ s.settleCursor_eq.trans (if_pos h), fun h => s.settleCursor_eq.trans (if_neg h)⟩
  · rintro s u i h rfl
    rw [s.fallAsleep_eq, s.startPatrolTimer_eq i h]
    exact ⟨fun e => if_pos e, fun e => if_neg e⟩
  · rintro s w rfl
    exact ⟨fun h => if_pos ((State.asleepReached_iff _).2 h), fun h => if_neg fun g => h ((State.asleepReached_iff _).1 g)⟩

end Sys2Proof.Machine
end

section
/-! SUPPORT. The arbiter of a chain: its decision, the next planned instant, the frames, the grant of a claim. -/

namespace Sys2Proof.Machine

/-! ### The decision of an arbiter (R34) -/

/-- R34: a chain that is free and RUNNING. -/
theorem State.arbitrate_free (s : State) (c : Chain) (runs : (s.port c).run = .running)
    (free : (s.port c).transaction = none) : s.arbitrate c = s.decide c :=
  if_pos (by simp [State.runs, runs, free])

theorem State.decide_claim (s : State) (c : Chain) (h : s.claimWaits c = true) : s.decide c = s.grantClaim c := if_pos h

/-- R34: with no claim waiting the heads that fit decide. -/
theorem State.decide_heads (s : State) (c : Chain) (h : s.claimWaits c = false) : s.decide c =
    match s.fittingHead c (s.port c).internal, s.fittingHead c (s.port c).forward with
    | some i, some f => if (s.port c).marker = .internal then s.grantForward c f else s.grantInternal c i
    | some i, none => s.grantInternal c i
    | none, some f => s.grantForward c f
    | none, none => s := by
  unfold State.decide
  dsimp only
  exact if_neg (by simp [h])

/-- R24, R36, R39: an order to a node is in flight with the tag of the counter until its timeout. -/
theorem State.grantOrder_node (s : State) (c : Chain) (p : ChainPort) (o : Order) (h : o.position ≠ 0) :
    (s.setPort c p).grantOrder c o = s.setPort c { p with
      transaction := some (.order o p.tagCounter (s.time + micros ((7 + o.data.length) * 5))
        (s.time + micros ((7 + o.data.length) * 5) + s.answerTimeout c o.position))
      tagCounter := p.tagCounter + 1#4
      kept := p.kept.filter fun k => k.tag != p.tagCounter } := by
  unfold State.grantOrder
  rw [if_neg h]
  cases c <;> rfl

/-- R36: a broadcast is in flight until 100 µs after its frame. -/
theorem State.grantOrder_broadcast (s : State) (c : Chain) (p : ChainPort) (o : Order) (h : o.position = 0) :
    (s.setPort c p).grantOrder c o = s.setPort c { p with
      transaction := some (.broadcast o (s.time + micros ((7 + o.data.length) * 5) + 100#32)) } := by
  unfold State.grantOrder
  rw [if_pos h]
  cases c <;> rfl

theorem State.fits_none (s : State) (c : Chain) (o : Order) (h : s.nextPlanned c = none) : s.fits c o = true := by
  unfold State.fits
  rw [h]

/-- R33: an order fits that ends by the planned instant less the guard. -/
theorem State.fits_some (s : State) (c : Chain) (o : Order) (p : Instant) (h : s.nextPlanned c = some p) :
    s.fits c o = true ↔ later (s.time + s.reserved c o) (p - micros (s.guard c)) = false := by
  unfold State.fits
  rw [h]
  simp

/-! ### The next planned instant (R9) -/

theorem State.nextPlanned_none (s : State) (c : Chain) (h : s.cursor.state ≠ .running ∨ (s.port c).run ≠ .running) :
    s.nextPlanned c = none :=
  if_pos (h.imp id fun g => by simpa [State.runs_iff] using g)

/-- R9: in RUNNING the upcoming TRIGGER, and while an apply is pending at the latest the cycle boundary. -/
theorem State.nextPlanned_running (s : State) (c : Chain) (cursor : s.cursor.state = .running)
    (runs : (s.port c).run = .running) : s.nextPlanned c =
      if s.update.state = .applyPending then
        match s.upcomingTrigger c with
        | some p => some (earlier p s.nextBoundary)
        | none => some s.nextBoundary
      else s.upcomingTrigger c := by
  unfold State.nextPlanned
  exact if_neg (by simp [cursor, State.runs_iff, runs])

theorem State.upcomingTrigger_none (s : State) (c : Chain)
    (h : ∀ x ∈ s.upcoming, x.1.trigger = true → c ∉ x.1.chains) : s.upcomingTrigger c = none := by
  have : s.upcoming.find? (fun x => x.1.trigger && x.1.chains.contains c) = none := by
    rw [List.find?_eq_none]
    intro x hx
    simpa using h x hx
  unfold State.upcomingTrigger
  rw [this]
  rfl

/-- R9: the first upcoming TRIGGER step that names the chain. -/
theorem State.upcomingTrigger_first (s : State) (c : Chain) (before : List (ScheduleStep × Instant)) (x : ScheduleStep)
    (start : Instant) (after : List (ScheduleStep × Instant)) (h : s.upcoming = before ++ (x, start) :: after)
    (trigger : x.trigger = true) (names : c ∈ x.chains)
    (earlier : ∀ y ∈ before, y.1.trigger = true → c ∉ y.1.chains) : s.upcomingTrigger c = some start := by
  have : s.upcoming.find? (fun x => x.1.trigger && x.1.chains.contains c) = some (x, start) := by
    rw [List.find?_eq_some_iff_append]
    refine ⟨by simp [trigger, names], before, after, h, fun y hy => ?_⟩
    simpa [imp_iff_not_or] using earlier y hy
  unfold State.upcomingTrigger
  rw [this]
  rfl

/-- The steps in the rest of this cycle, after the present one. -/
theorem State.restOfCycle_length (s : State) :
    ((stepStarts s.cursor.start (s.steps.drop s.cursor.step)).drop 1).length = s.steps.length - s.cursor.step - 1 := by
  rw [List.length_drop, stepStarts_length, List.length_drop]

theorem State.upcoming_length (s : State) (h : s.cursor.step < s.steps.length) :
    s.upcoming.length = 2 * s.steps.length - s.cursor.step - 1 := by
  unfold State.upcoming
  rw [List.length_append, s.restOfCycle_length, stepStarts_length]
  omega

/-- R9: a later step of this cycle, with its start. -/
theorem State.upcoming_this (s : State) (n : Nat) (x : ScheduleStep) (h : s.steps[n]? = some x) (lt : s.cursor.step < n) :
    s.upcoming[n - s.cursor.step - 1]? =
      some (x, s.cursor.start + micros (totalDuration ((s.steps.take n).drop s.cursor.step))) := by
  obtain ⟨bound, _⟩ := List.getElem?_eq_some_iff.1 h
  unfold State.upcoming
  rw [List.getElem?_append_left (by rw [s.restOfCycle_length]; omega), List.getElem?_drop, stepStarts_getElem,
    List.getElem?_drop, show s.cursor.step + (1 + (n - s.cursor.step - 1)) = n by omega, h,
    show 1 + (n - s.cursor.step - 1) = n - s.cursor.step by omega, ← List.drop_take]
  rfl

/-- R9: a step of the next cycle, with its start. -/
theorem State.upcoming_next (s : State) (n : Nat) (x : ScheduleStep) (h : s.steps[n]? = some x) :
    s.upcoming[s.steps.length - s.cursor.step - 1 + n]? =
      some (x, s.nextBoundary + micros (totalDuration (s.steps.take n))) := by
  unfold State.upcoming
  rw [List.getElem?_append_right (by rw [s.restOfCycle_length]; omega), s.restOfCycle_length, Nat.add_sub_cancel_left,
    stepStarts_getElem, h]
  rfl

/-! ### The frame of the transaction in flight (R16, R24) -/

theorem State.downwardFrame_trigger (s : State) (c : Chain) (r : RoundRecord)
    (t : (s.port c).transaction = some .trigger) (h : s.collectingRound c = some r) :
    s.downwardFrame c = some (0xA5#8 :: chainFrame 1#8 0#4 0#8 [r.number.truncate 8, r.kind.code]) := by
  unfold State.downwardFrame
  rw [t]
  dsimp only
  rw [h]
  rfl

theorem State.downwardFrame_order (s : State) (c : Chain) (o : Order) (tag : BitVec 4) (e due : Instant)
    (t : (s.port c).transaction = some (.order o tag e due)) :
    s.downwardFrame c = some (0xA5#8 :: chainFrame 2#8 tag (byteOfNat o.position) (o.code :: o.data)) := by
  unfold State.downwardFrame
  rw [t]
  rfl

theorem State.downwardFrame_broadcast (s : State) (c : Chain) (o : Order) (settle : Instant)
    (t : (s.port c).transaction = some (.broadcast o settle)) :
    s.downwardFrame c = some (0xA5#8 :: chainFrame 2#8 0#4 (byteOfNat o.position) (o.code :: o.data)) := by
  unfold State.downwardFrame
  rw [t]
  rfl

/-! ### A waiting claim (R11, R13) -/

theorem RoundRecord.mapPart_eq (r : RoundRecord) (c : Chain) (f : ChainPart → ChainPart) :
    r.mapPart c f = { r with parts := r.parts.map fun p => if p.chain = c then f p else p } := by
  unfold RoundRecord.mapPart
  simp only [beq_iff_eq]

theorem State.mapRecord_eq (s : State) (n : RoundNumber) (f : RoundRecord → RoundRecord) :
    s.mapRecord n f = { s with ring := s.ring.map fun r => if r.number = n then f r else r } := by
  unfold State.mapRecord
  simp only [beq_iff_eq]

theorem State.waitingRound_isSome_iff (s : State) (c : Chain) :
    (s.waitingRound c).isSome = true ↔ ∃ x ∈ s.ring, x.closed = false ∧ x.waitsFor c = true := by
  unfold State.waitingRound
  simp [List.find?_isSome]

theorem State.claimWaits_iff (s : State) (c : Chain) : s.claimWaits c = true ↔
    (∃ x, s.pendingRound = some x ∧ x.waitsFor c = true) ∨ (∃ x ∈ s.ring, x.closed = false ∧ x.waitsFor c = true) := by
  unfold State.claimWaits
  rw [Bool.or_eq_true, s.waitingRound_isSome_iff]
  cases s.pendingRound <;> simp

/-- R11: the first record that is not CLOSED and waits for the chain. -/
theorem State.waitingRound_first (s : State) (c : Chain) (before after : List RoundRecord) (r : RoundRecord)
    (ring : s.ring = before ++ r :: after) (open_ : r.closed = false) (waits : r.waitsFor c = true)
    (earlier : ∀ x ∈ before, x.closed = true ∨ x.waitsFor c = false) : s.waitingRound c = some r := by
  unfold State.waitingRound
  rw [List.find?_eq_some_iff_append]
  refine ⟨by simp [open_, waits], before, after, ring, fun x hx => ?_⟩
  rcases earlier x hx with h | h <;> simp [h]

/-- R11, R13: the claim of a round that is not placed yet. -/
theorem State.grantClaim_pending (s : State) (c : Chain) (r : RoundRecord) (h : s.pendingRound = some r)
    (waits : r.waitsFor c = true) : s.grantClaim c =
      (({ s with pendingRound := none } : State).placeRound (r.mapPart c fun p => p.send s.time r.planned)).sendTrigger c := by
  unfold State.grantClaim
  dsimp only
  rw [h]
  exact if_pos waits

/-- R11: the claim of a record in the ring. -/
theorem State.grantClaim_placed (s : State) (c : Chain) (r : RoundRecord) (h : s.pendingRound = none)
    (waiting : s.waitingRound c = some r) : s.grantClaim c =
      (s.mapRecord r.number fun x => x.mapPart c fun p => p.send s.time x.planned).sendTrigger c := by
  unfold State.grantClaim
  dsimp only
  rw [h]
  dsimp only
  rw [waiting]

theorem State.answerTimeout_image (s : State) (c : Chain) (position : Nat) (i : Image) (h : s.image = some i) :
    s.answerTimeout c position = micros ((i.timing c).answerBase + position * (i.timing c).hop) := by
  unfold State.answerTimeout
  rw [h]

theorem State.guard_image (s : State) (c : Chain) (i : Image) (h : s.image = some i) : s.guard c = (i.timing c).guard := by
  unfold State.guard
  rw [h]

/-- Entry 6: without a working image the answer timeout is a free value of the position. -/
theorem State.answerTimeout_free (s : State) (c : Chain) (position : Nat) (h : s.image = none) :
    s.answerTimeout c position = (Config.unconfiguredTimeout position).zeroExtend 32 := by
  unfold State.answerTimeout
  rw [h]

/-- Settles O31: the decision, the next planned instant, the frames, the grant of a claim, and the durations. -/
theorem arbiterDecides : Obligations.ArbiterDecides := by
  refine ⟨⟨⟨fun s c => ⟨fun h => ?_, fun runs free => ?_, fun o => ?_, rfl, fun _ _ => rfl⟩, ?_, fun s c => ?_⟩, ?_⟩,
    fun s c o position => ⟨rfl, fun i h => ⟨s.guard_image c i h, s.answerTimeout_image c position i h⟩,
      fun _ => ⟨_, fun t d h => t.answerTimeout_free d position h⟩⟩⟩
  · exact s.arbitrate_none c (h.imp (fun g => Bool.eq_false_iff.2 fun e => g ((s.runs_iff c).1 e)) id)
  · rw [s.arbitrate_free c runs free]
    refine ⟨s.decide_claim c, fun i f w hi hf => ?_, fun i w hi hf => ?_, fun f w hi hf => ?_, fun w hi hf => ?_⟩ <;>
      rw [s.decide_heads c w, hi, hf]
  · exact ⟨s.grantOrder_node c _ o, s.grantOrder_broadcast c _ o, s.fits_none c o, fun p => s.fits_some c o p⟩
  · rintro s c boundary rfl
    refine ⟨s.nextPlanned_none c, fun cursor runs => ?_, s.upcomingTrigger_none c, s.upcomingTrigger_first c,
      s.upcoming_length, fun n x h => ⟨s.upcoming_this n x h, fun _ => s.upcoming_next n x h⟩, fun _ => rfl⟩
    rw [s.nextPlanned_running c cursor runs]
    exact ⟨fun h => if_neg h, fun h g => by rw [if_pos h, g]; rfl, fun p h g => by rw [if_pos h, g]; rfl⟩
  · exact ⟨fun o => ⟨s.grantOrder_node c _ o, s.grantOrder_broadcast c _ o⟩, rfl, s.downwardFrame_free c,
      s.downwardFrame_trigger c, s.downwardFrame_order c, s.downwardFrame_broadcast c⟩
  · rintro s c r send waits trigger rfl rfl rfl
    simp only [← RoundRecord.waitsFor_iff, ← RoundRecord.mapPart_eq]
    refine ⟨s.claimWaits_iff c, s.grantClaim_pending c r, fun before after h ring open_ w earlier => ?_⟩
    rw [s.grantClaim_placed c r h (s.waitingRound_first c before after r ring open_ w
      fun x hx => (earlier x hx).imp id Bool.eq_false_iff.2), s.mapRecord_eq]
    rfl

end Sys2Proof.Machine
end

section
/-! SUPPORT. The close of a round leaves the round counter as it is. -/

namespace Sys2Proof.Machine

/-! ### The close of a round leaves the round counter (R12, R21) -/

section RoundCounter

variable (s : State)

theorem State.notifyAwake_roundCounter (n : Notice) : (s.notifyAwake n).roundCounter = s.roundCounter := by
  obtain ⟨l, h⟩ := s.notifyAwake_frame n
  rw [h]

theorem State.syncWindow_roundCounter : s.syncWindow.roundCounter = s.roundCounter := by
  obtain ⟨w, h⟩ := s.syncWindow_frame
  rw [h]

theorem State.requestCapture_roundCounter (c : CaptureCause) (n : Option RoundNumber) :
    (s.requestCapture c n).roundCounter = s.roundCounter := by
  obtain ⟨l, captures, ring, h⟩ := s.requestCapture_frame c n
  rw [h]

theorem State.latch_roundCounter (c : WakeCause) : (s.latch c).roundCounter = s.roundCounter := by
  unfold State.latch
  split <;> rfl

/-- Effects that leave the round counter do so together, in whatever order. -/
theorem State.anyOrder_roundCounter (fs : List (State → State))
    (h : ∀ f ∈ fs, ∀ u : State, (f u).roundCounter = u.roundCounter) :
    (s.anyOrder fs).roundCounter = s.roundCounter :=
  s.anyOrder_keeps (P := fun t => t.roundCounter = s.roundCounter) fs (fun f hf u hu => (h f hf u).trans hu) rfl

theorem State.openRequest_roundCounter (k : ChannelId) (by_ : Requester) (n : Option RoundNumber) :
    (s.openRequest k by_ n).roundCounter = s.roundCounter := by
  delta State.openRequest
  extract_lets c load opening s1 s2
  have dropout : s1.roundCounter = s.roundCounter := (State.syncWindow_roundCounter _).trans rfl
  have noticed : s2.roundCounter = s.roundCounter := (State.notifyAwake_roundCounter _ _).trans dropout
  split
  · split
    · exact (State.requestCapture_roundCounter _ _ _).trans noticed
    · exact noticed
  · rfl

theorem State.noticeWithOpenings_roundCounter (notice : State → State) (ks : List ChannelId) (n : Option RoundNumber)
    (h : ∀ u : State, (notice u).roundCounter = u.roundCounter) :
    (s.noticeWithOpenings notice ks n).roundCounter = s.roundCounter := by
  refine s.anyOrder_roundCounter _ fun f hf u => ?_
  rcases List.mem_cons.1 hf with rfl | hf
  · exact h u
  · obtain ⟨k, _, rfl⟩ := List.mem_map.1 hf
    exact u.openRequest_roundCounter k _ n

theorem State.actionOpening_roundCounter (c : Cause) (n : Option RoundNumber) :
    (s.actionOpening c n).roundCounter = s.roundCounter := by
  have tripped : (s.enterTripped c n).roundCounter = s.roundCounter :=
    State.noticeWithOpenings_roundCounter _ _ _ n fun u => State.notifyAwake_roundCounter _ _
  unfold State.actionOpening
  split
  · rfl
  · rfl
  all_goals exact tripped

theorem State.inhibitWith_roundCounter (c : Cause) : (s.inhibitWith c).roundCounter = s.roundCounter := by
  unfold State.inhibitWith
  split <;> rfl

theorem firingEffects_roundCounter (a : ActionEntry) (c : Cause) (n : Option RoundNumber) (f : State → State)
    (hf : f ∈ firingEffects a c n) (u : State) : (f u).roundCounter = u.roundCounter := by
  have one : ∀ {b : Bool} {g : State → State}, f ∈ (if b then [g] else []) → f = g := fun {b g} h => by
    cases b
    · exact absurd h List.not_mem_nil
    · exact List.mem_singleton.1 h
  have other : ∀ {b : Bool} {g : State → State}, f ∈ (if b then [] else [g]) → f = g := fun {b g} h => by
    cases b
    · exact List.mem_singleton.1 h
    · exact absurd h List.not_mem_nil
  simp only [firingEffects, List.mem_append, List.mem_map] at hf
  rcases hf with (((⟨k, _, rfl⟩ | hf) | hf) | hf) | hf
  · exact u.openRequest_roundCounter k _ n
  · exact other hf ▸ u.actionOpening_roundCounter c n
  · exact one hf ▸ u.inhibitWith_roundCounter c
  · exact one hf ▸ u.requestCapture_roundCounter _ n
  · exact one hf ▸ u.latch_roundCounter _

theorem State.fire_roundCounter (a : Option Nat) (c : Cause) (n : Option RoundNumber) :
    (s.fire a c n).roundCounter = s.roundCounter := by
  unfold State.fire
  split
  · exact s.anyOrder_roundCounter _ (firingEffects_roundCounter _ c n)
  · rfl

theorem State.countReading_roundCounter (c : Chain) (cause : Option EndCause) (x : Reading) (n : RoundNumber) :
    (s.countReading c cause x n).roundCounter = s.roundCounter := by
  unfold State.countReading
  split
  · rfl
  · split
    · rfl
    · extract_lets after t
      split
      · exact (State.fire_roundCounter _ _ _ _).trans rfl
      · rfl
    · extract_lets t
      split <;> rfl

/-- A fold of changes each of which leaves the round counter. -/
theorem foldl_roundCounter {α : Type} (g : State → α → State) (h : ∀ s a, (g s a).roundCounter = s.roundCounter)
    (l : List α) (s : State) : (l.foldl g s).roundCounter = s.roundCounter := by
  induction l generalizing s with
  | nil => rfl
  | cons a l ih => exact (ih _).trans (h s a)

theorem State.countRound_roundCounter (n : RoundNumber) : (s.countRound n).roundCounter = s.roundCounter := by
  have part : ∀ (s : State) (p : ChainPart), (s.countPart p n).roundCounter = s.roundCounter := fun s p => by
    unfold State.countPart
    split
    · exact foldl_roundCounter _ (fun t x => t.countReading_roundCounter _ _ x n) _ s
    · rfl
  unfold State.countRound
  split
  · exact foldl_roundCounter _ part _ s
  · rfl

theorem State.applyVerdict_roundCounter (i : Nat) (e : LimitEntry) (f : Finding) (x : LimitSource)
    (n : Option RoundNumber) : (s.applyVerdict i e f x n).roundCounter = s.roundCounter := by
  unfold State.applyVerdict
  dsimp only
  split
  · exact (State.fire_roundCounter _ _ _ _).trans (State.notifyAwake_roundCounter _ _)
  · exact State.notifyAwake_roundCounter _ _
  · rfl

theorem State.evaluateRound_roundCounter (n : RoundNumber) : (s.evaluateRound n).roundCounter = s.roundCounter := by
  have walk : ∀ (r : RoundRecord) (l : List (LimitEntry × Nat)) (acc : State × List VerdictItem),
      (l.foldl (evaluateEntry r) acc).1.roundCounter = acc.1.roundCounter := fun r l => by
    induction l with
    | nil => exact fun _ => rfl
    | cons x l ih =>
      refine fun acc => (ih _).trans ?_
      unfold evaluateEntry
      split
      · exact acc.1.applyVerdict_roundCounter _ _ _ _ _
      · rfl
  unfold State.evaluateRound
  split
  · exact walk _ _ (s, [])
  · rfl

theorem State.takePostRound_roundCounter (n : RoundNumber) : (s.takePostRound n).roundCounter = s.roundCounter := by
  refine (foldl_roundCounter _ (fun t c => ?_) _ _).trans rfl
  unfold State.noticeDone
  split
  · exact t.notifyAwake_roundCounter _
  · rfl

theorem State.reportRound_roundCounter (n : RoundNumber) : (s.reportRound n).roundCounter = s.roundCounter := by
  unfold State.reportRound
  split <;> rfl

theorem State.finishRound_roundCounter (n : RoundNumber) : (s.finishRound n).roundCounter = s.roundCounter := by
  refine (State.anyOrder_roundCounter _ _ fun f hf u => ?_).trans rfl
  rcases List.mem_append.1 hf with hf | hf <;> split at hf
  · exact List.mem_singleton.1 hf ▸ u.takePostRound_roundCounter n
  · cases hf
  · exact List.mem_singleton.1 hf ▸ u.reportRound_roundCounter n
  · cases hf

theorem State.closeStages_roundCounter (n : RoundNumber) : (s.closeStages n).roundCounter = s.roundCounter :=
  (State.finishRound_roundCounter _ n).trans ((State.evaluateRound_roundCounter _ n).trans
    ((State.countRound_roundCounter _ n).trans rfl))

theorem State.placeRound_roundCounter (r : RoundRecord) : (s.placeRound r).roundCounter = s.roundCounter := by
  obtain ⟨ring, captures, h⟩ := s.placeRound_frame r
  rw [h]

/-- R12: the round created has the number that the counter then shows. -/
theorem State.createRound_roundCounter (r : RoundRecord) : (s.createRound r).roundCounter = r.number := by
  have triggers : (r.parts.foldl (fun (s : State) (p : ChainPart) => if p.state = .sent then s.sendTrigger p.chain else s)
      { s with roundCounter := r.number }).roundCounter = r.number :=
    (foldl_roundCounter _ (fun t p => by split <;> rfl) _ _).trans rfl
  refine Eq.trans ?_ triggers
  show (State.settleNew _ r).roundCounter = _
  unfold State.settleNew
  split
  · exact State.placeRound_roundCounter _ r
  · split
    · rfl
    · exact (State.closeStages_roundCounter _ _).trans (State.placeRound_roundCounter _ r)

end RoundCounter

end Sys2Proof.Machine
end

section
/-! SUPPORT. The end of a step, and the withdrawal of a waiting claim. -/

namespace Sys2Proof.Machine

/-! ### A waiting claim is withdrawn (R11, R13, R21) -/

/-- A claim that waits in the round that is not placed. -/
theorem State.claimNumber_pending (v : State) (c : Chain) (r : RoundRecord) (h : v.pendingRound = some r)
    (waits : r.waitsFor c = true) : v.claimNumber c = some r.number := by
  unfold State.claimNumber
  rw [h]
  exact if_pos waits

theorem State.claimNumber_placed (v : State) (c : Chain) (r : RoundRecord) (h : v.pendingRound = none)
    (waiting : v.waitingRound c = some r) : v.claimNumber c = some r.number := by
  unfold State.claimNumber
  rw [h]
  dsimp only
  rw [waiting]
  rfl

theorem State.claimNumber_none (v : State) (c : Chain) (h : v.claimWaits c = false) : v.claimNumber c = none := by
  unfold State.claimWaits at h
  obtain ⟨pending, placed⟩ := Bool.or_eq_false_iff.1 h
  unfold State.claimNumber
  cases r : v.pendingRound with
  | some x =>
    rw [r] at pending
    exact if_neg (by simpa using pending)
  | none =>
    dsimp only
    rw [Option.isSome_eq_false_iff.1 placed |> Option.isNone_iff_eq_none.1]
    rfl

/-- R11: with no claim waiting nothing is withdrawn. -/
theorem State.withdrawClaim_none (v : State) (c : Chain) (state : PartState) (h : v.claimWaits c = false) :
    v.withdrawClaim c state = v := by
  unfold State.withdrawClaim
  rw [v.claimNumber_none c h]

/-- No COLLECTING record has the number, so that none closes. -/
theorem State.closeIfSettled_none (v : State) (n : RoundNumber) (h : ∀ x ∈ v.ring, x.number = n → x.closed = true) :
    v.closeIfSettled n = v := by
  refine if_neg ?_
  unfold State.closesNow
  cases r : v.record n with
  | none => simp
  | some x => simp [h x (List.mem_of_find?_eq_some r) (State.record_number r)]

/-- R13, R21: the withdrawal settles a round that is not placed: it is placed, and closes. -/
theorem State.withdrawClaim_pending_settled (v : State) (c : Chain) (state : PartState) (r m : RoundRecord)
    (h : v.pendingRound = some r) (waits : r.waitsFor c = true) (open_ : r.closed = false)
    (hm : m = r.mapPart c fun p => { p with state := state }) (settled : m.settled = true) : v.withdrawClaim c state =
      ((({ v with pendingRound := none } : State).placeRound m).closeStages r.number).afterClose m := by
  subst hm
  have part : v.withdrawPart c state = ({ v with pendingRound := none } : State).placeRound
      (r.mapPart c fun p => { p with state := state }) := by
    unfold State.withdrawPart
    dsimp only
    rw [h]
    dsimp only
    rw [if_pos waits, if_pos settled]
  have record := ({ v with pendingRound := none } : State).placeRound_record (r.mapPart c fun p => { p with state := state })
  unfold State.withdrawClaim
  rw [v.claimNumber_pending c r h waits]
  dsimp only
  rw [part]
  exact (State.closeIfSettled_of_record record).trans (if_pos ⟨open_, settled⟩)

/-- R13: the round that is not placed waits on for its other part. -/
theorem State.withdrawClaim_pending_waits (v : State) (c : Chain) (state : PartState) (r m : RoundRecord)
    (h : v.pendingRound = some r) (waits : r.waitsFor c = true) (hm : m = r.mapPart c fun p => { p with state := state })
    (unsettled : ¬m.settled = true) (closed : ∀ x ∈ v.ring, x.number = r.number → x.closed = true) :
    v.withdrawClaim c state = { v with pendingRound := some m } := by
  subst hm
  have part : v.withdrawPart c state = { v with pendingRound := some (r.mapPart c fun p => { p with state := state }) } := by
    unfold State.withdrawPart
    dsimp only
    rw [h]
    dsimp only
    rw [if_pos waits, if_neg unsettled]
  unfold State.withdrawClaim
  rw [v.claimNumber_pending c r h waits]
  dsimp only
  rw [part]
  exact State.closeIfSettled_none _ r.number closed

/-- The record of a number, the first in the ring that carries it. -/
theorem State.record_first (v : State) (before after : List RoundRecord) (r : RoundRecord)
    (ring : v.ring = before ++ r :: after) (first : ∀ x ∈ before, x.number ≠ r.number) : v.record r.number = some r := by
  unfold State.record
  rw [List.find?_eq_some_iff_append]
  exact ⟨by simp, before, after, ring, fun x hx => by simpa using first x hx⟩

/-- R11, R21: the claim of a record in the ring: it closes where the withdrawal settles it. -/
theorem State.withdrawClaim_placed (v u : State) (c : Chain) (state : PartState) (before after : List RoundRecord)
    (r m : RoundRecord) (h : v.pendingRound = none) (ring : v.ring = before ++ r :: after) (open_ : r.closed = false)
    (waits : r.waitsFor c = true)
    (first : ∀ x ∈ before, x.number ≠ r.number ∧ (x.closed = true ∨ x.waitsFor c = false))
    (hm : m = r.mapPart c fun p => { p with state := state })
    (hu : u = { v with ring := v.ring.map fun x =>
      if x.number = r.number then x.mapPart c fun p => { p with state := state } else x }) :
    v.withdrawClaim c state = if m.settled = true then (u.closeStages r.number).afterClose m else u := by
  have waiting := v.waitingRound_first c before after r ring open_ waits fun x hx => (first x hx).2
  have part : v.withdrawPart c state = u := by
    unfold State.withdrawPart
    dsimp only
    rw [h]
    dsimp only
    rw [waiting, hu]
    exact v.mapRecord_eq r.number _
  have record : u.record r.number = some m := by
    rw [hu, hm, ← State.mapRecord_eq]
    exact State.mapRecord_record (fun x => x.mapPart c fun p => { p with state := state }) (fun _ => rfl)
      (v.record_first before after r ring fun x hx => (first x hx).1)
  have closed : m.closed = false := by rw [hm]; exact open_
  unfold State.withdrawClaim
  rw [v.claimNumber_placed c r h waiting]
  dsimp only
  rw [part, State.closeIfSettled_of_record record]
  simp only [closed, true_and]

/-! ### The expiry of a step (R5 to R8, R10) -/

theorem State.currentStep_stepEnd (v : State) (x : ScheduleStep) (h : v.steps[v.cursor.step]? = some x) :
    v.stepEnd = v.cursor.start + BitVec.ofNat 32 (x.width * 100) := by
  unfold State.stepEnd State.currentStep
  rw [h]
  rfl

theorem State.beginStep_quiet (v : State) (x : ScheduleStep) (h : v.steps[v.cursor.step]? = some x)
    (quiet : x.trigger = false) : v.beginStep = v := by
  unfold State.beginStep State.currentStep
  rw [h]
  exact if_neg (by simp [quiet])

/-- R10, R12: a TRIGGER step creates its round. -/
theorem State.beginStep_trigger (v : State) (x : ScheduleStep) (h : v.steps[v.cursor.step]? = some x)
    (trigger : x.trigger = true) : v.beginStep =
      v.createRound (v.newRound (.step v.cursor.step) x.kind x.report x.chains v.cursor.start) := by
  unfold State.beginStep State.currentStep
  rw [h]
  exact if_pos trigger

/-- R6, R7: past the last step the cursor takes step 0, where the conditions hold with the new image. -/
theorem State.advance_boundary (v : State) (last : v.steps.length ≤ v.cursor.step + 1) : v.advance =
    if v.update.state = .applyPending ∧ v.applyAllowed = true then
      State.beginStep { v.apply with cursor := ⟨.running, 0, v.stepEnd, 0#32⟩ }
    else State.beginStep { v with cursor := ⟨.running, 0, v.stepEnd, v.cursor.cycles + 1#32⟩ } :=
  if_neg (by omega)

theorem State.applyAllowed_iff (v : State) : v.applyAllowed = true ↔ (∀ r ∈ v.ring, r.closed = true) ∧
    v.sequencer.state.transitional = false ∧ ∀ c, (v.port c).survey = .idle := by
  have chains : (∀ c, (v.port c).survey = .idle) ↔ (v.port .A).survey = .idle ∧ (v.port .B).survey = .idle :=
    ⟨fun h => ⟨h .A, h .B⟩, fun ⟨a, b⟩ c => by cases c; exacts [a, b]⟩
  unfold State.applyAllowed
  rw [chains]
  simp [and_assoc]

/-- R10: the part of a chain at the planned instant, by the run state of the chain and by what is in flight there. -/
theorem State.newPart_stopped (v : State) (planned : Instant) (c : Chain) (h : (v.port c).run ≠ .running) :
    (v.newPart planned c).state = .stopped := by
  unfold State.newPart
  dsimp only
  rw [if_pos (by simp [State.runs, h])]

theorem State.newPart_sent (v : State) (planned : Instant) (c : Chain) (h : (v.port c).run = .running)
    (free : (v.port c).transaction = none) : (v.newPart planned c).state = .sent ∧
      (v.newPart planned c).actual = some planned ∧ (v.newPart planned c).lateness = some 0#32 := by
  unfold State.newPart
  dsimp only
  rw [if_neg (by simp [State.runs, h]), if_pos (by simp [free])]
  exact ⟨rfl, rfl, rfl⟩

theorem State.newPart_waiting (v : State) (planned : Instant) (c : Chain) (h : (v.port c).run = .running)
    (busy : (v.port c).transaction ≠ none) : (v.newPart planned c).state = .waiting := by
  unfold State.newPart
  dsimp only
  rw [if_neg (by simp [State.runs, h]), if_neg (by simpa using busy)]

theorem exec_stepExpiry_early (s : State) (h : s.stepDue = false) : exec .stepExpiry s = .next s :=
  congrArg Host.Outcome.next (s.timed_early _ _ h)

/-- Settles O24: the end of a step, its parts by name, and the withdrawal of a claim. -/
theorem stepExpires : Obligations.StepExpires := by
  refine ⟨⟨⟨?_, fun v => ⟨fun h => if_pos h, fun h => ?_, v.applyAllowed_iff, fun x h => ?_, fun planned c => ?_,
    v.createRound_roundCounter⟩⟩, fun s h => ⟨fun stopping a b => ?_, fun state => ?_⟩, ?_⟩, fun q => ?_⟩
  · rintro s u h ends rfl cursor
    have expires : s.stepDue = true → exec .stepExpiry s = .next (State.finish
        (if ((s.withdrawClaim .A .missed).withdrawClaim .B .missed).cursor.state = .running then
          ((s.withdrawClaim .A .missed).withdrawClaim .B .missed).advance
        else (s.withdrawClaim .A .missed).withdrawClaim .B .missed)) := exec_stepExpiry s h
    rw [cursor] at expires
    refine ⟨fun a b => ?_, fun running => ?_, fun stopping claim => ?_⟩
    · rw [s.withdrawClaim_none .A _ a, s.withdrawClaim_none .B _ b]
    · rw [expires (s.stepDue_iff.2 ⟨ends, .inl running⟩), if_pos running]
    · rw [expires (s.stepDue_iff.2 ⟨ends, .inr ⟨stopping, (exists_chain _).2 claim⟩⟩), if_neg (by simp [stopping])]
  · rw [v.advance_boundary h]
    exact ⟨fun g => if_pos g, fun g => if_neg g⟩
  · exact ⟨v.currentStep_stepEnd x h, v.beginStep_quiet x h, v.beginStep_trigger x h⟩
  · exact ⟨v.newPart_stopped planned c, v.newPart_sent planned c, v.newPart_waiting planned c⟩
  · exact exec_stepExpiry_early s (by simp [State.stepDue, stopping, a, b])
  · refine exec_stepExpiry_early s ?_
    rcases state with state | state <;> simp [State.stepDue, state]
  · intro v u c state r mark waits settled hmark hwaits hsettled
    obtain rfl : mark = fun x => x.mapPart c fun p => { p with state := state } :=
      hmark.trans (funext fun x => (x.mapPart_eq c _).symm)
    obtain rfl : waits = fun x => x.waitsFor c = true := hwaits.trans (funext fun x => propext (x.waitsFor_iff c).symm)
    obtain rfl : settled = fun x => x.settled = true := hsettled.trans (funext fun x => propext x.settled_iff.symm)
    refine ⟨v.withdrawClaim_none c state, fun h w open_ => ⟨fun g => ?_, fun g closed => ?_⟩,
      fun before after h ring open_ w first hu => ?_⟩
    · exact v.withdrawClaim_pending_settled c state r _ h w open_ rfl g
    · exact v.withdrawClaim_pending_waits c state r _ h w rfl g closed
    · have first' := fun x hx => (first x hx).imp id (Or.imp id Bool.eq_false_iff.2)
      rw [v.withdrawClaim_placed u c state before after r _ h ring open_ w first' rfl hu]
      exact ⟨fun g => if_pos g, fun g => if_neg g⟩
  · cases q <;> simp [SeqState.transitional]

end Sys2Proof.Machine
end

section
/-! SUPPORT. A SAMPLE SET: what it finds, what it fills, and what follows the reading. -/

namespace Sys2Proof.Machine

/-! ### What a SAMPLE SET finds (R17, R18) -/

theorem State.takeSampleSet_idle (s : State) (c : Chain) (address : Byte) (payload : List Byte)
    (h : s.collectingRound c = none) : s.takeSampleSet c address payload = s := by
  unfold State.takeSampleSet
  rw [h]

theorem State.takeFailedSet_idle (s : State) (c : Chain) (address : Byte) (h : s.collectingRound c = none) :
    s.takeFailedSet c address = s := by
  unfold State.takeFailedSet
  rw [h]

/-- R17: a set of another round is discarded. -/
theorem State.takeSampleSet_other (s : State) (c : Chain) (address : Byte) (payload : List Byte) (r : RoundRecord)
    (h : s.collectingRound c = some r) (other : (readSampleSet payload).roundLow ≠ r.number.truncate 8) :
    s.takeSampleSet c address payload = s := by
  unfold State.takeSampleSet
  rw [h]
  exact if_pos other

/-- R17: a set of the collecting round, by the MISSING entry of its address. -/
theorem State.takeSampleSet_round (s : State) (c : Chain) (address : Byte) (payload : List Byte) (r : RoundRecord)
    (p : ChainPart) (h : s.collectingRound c = some r) (hp : r.part c = some p)
    (same : (readSampleSet payload).roundLow = r.number.truncate 8) : s.takeSampleSet c address payload =
      match p.missing address with
      | some x => (s.fillReading c r.number x (readSampleSet payload)).afterReading c r.number
      | none => s := by
  unfold State.takeSampleSet
  rw [h]
  dsimp only
  rw [hp]
  exact if_neg (not_not_intro same)

theorem State.takeFailedSet_round (s : State) (c : Chain) (address : Byte) (r : RoundRecord) (p : ChainPart)
    (h : s.collectingRound c = some r) (hp : r.part c = some p) : s.takeFailedSet c address =
      match p.missing address with
      | some x => (s.failReading c r.number x).afterReading c r.number
      | none => s := by
  unfold State.takeFailedSet
  rw [h]
  dsimp only
  rw [hp]
  rfl

theorem State.fillReading_unread (s : State) (c : Chain) (n : RoundNumber) (x : Reading) (set : SampleSet)
    (h : set.lists = none) : s.fillReading c n x set = s.failReading c n x := by
  unfold State.fillReading
  rw [h]

/-- R17: lists that are not of the planned counts. -/
theorem State.fillReading_miscounted (s : State) (c : Chain) (n : RoundNumber) (x : Reading) (set : SampleSet)
    (cells temps : List (BitVec 16)) (e : NodeEntry) (h : set.lists = some (cells, temps)) (node : s.node c x.position = some e)
    (counts : cells.length ≠ e.cells ∨ temps.length ≠ e.temps) : s.fillReading c n x set = s.failReading c n x := by
  unfold State.fillReading
  rw [h, node]
  exact if_neg (by simpa [listsFit, imp_iff_not_or] using counts)

/-- R19, R28: lists of the planned counts fill the entry. -/
theorem State.fillReading_counted (s : State) (c : Chain) (n : RoundNumber) (x : Reading) (set : SampleSet)
    (cells temps : List (BitVec 16)) (e : NodeEntry) (h : set.lists = some (cells, temps)) (node : s.node c x.position = some e)
    (hc : cells.length = e.cells) (ht : temps.length = e.temps) : s.fillReading c n x set =
      (s.setReading c n ⟨x.position, if set.nodeReset = true ∨ e.holdoff = none then .unaligned else .ok, cells, temps,
        set.nodeReset, set.localFault⟩).takeNodeFlags c x.position set.nodeReset set.localFault n := by
  have status : fillStatus set.nodeReset e.holdoff =
      if set.nodeReset = true ∨ e.holdoff = none then .unaligned else .ok := by
    unfold fillStatus
    simp only [Bool.or_eq_true, Option.isNone_iff_eq_none]
  unfold State.fillReading
  rw [h, node, ← status]
  exact if_pos (by simp [listsFit, hc, ht])

/-! ### The node flags (R28, R50) -/

/-- R50: of a survey in flight the position leaves the aligned list for the tail of the other. -/
theorem ChainPort.unalign_eq (p : ChainPort) (position : Nat) : p.unalign position = { p with
    aligned := if p.survey ≠ .idle then p.aligned.filter (fun x => x != position) else p.aligned
    notAligned := if p.survey ≠ .idle ∧ position ∈ p.aligned then p.notAligned ++ [position] else p.notAligned } := by
  unfold ChainPort.unalign
  by_cases survey : p.survey = .idle
  · simp only [survey, ne_eq, not_true_eq_false, false_and, if_false]
    rw [← survey]
  · by_cases listed : position ∈ p.aligned
    · simp [survey, listed]
    · have kept : p.aligned.filter (fun x => x != position) = p.aligned := by
        rw [List.filter_eq_self]
        intro x hx
        simpa using fun e : x = position => listed (e ▸ hx)
      simp [survey, listed, kept]

theorem State.mapNode_eq (s : State) (c : Chain) (position : Nat) (f : NodeEntry → NodeEntry) :
    s.mapNode c position f = s.setPort c { s.port c with
      table := (s.port c).table.map fun e => if e.position = position then f e else e } := by
  unfold State.mapNode
  simp only [State.mapPort_eq_setPort, beq_iff_eq]

/-- R28: a node that has reset. -/
theorem State.takeNodeFlags_reset (s : State) (c : Chain) (position : Nat) (localFault : Bool) (n : RoundNumber)
    (q : ChainPort) (hq : q = { s.port c with
      table := (s.port c).table.map fun e => if e.position = position then { e with
        localFault := localFault, holdoff := none, state := if e.state = .lost then .lost else .unsurveyed } else e
      aligned := if (s.port c).survey ≠ .idle then (s.port c).aligned.filter (fun x => x != position)
        else (s.port c).aligned
      notAligned := if (s.port c).survey ≠ .idle ∧ position ∈ (s.port c).aligned then
        (s.port c).notAligned ++ [position] else (s.port c).notAligned }) :
    s.takeNodeFlags c position true localFault n =
      match s.image with
      | some i => if (i.timing c).autoSurvey then ((s.setPort c q).notify (.nodeUnaligned c position n)).requestSurvey c
        else (s.setPort c q).notify (.nodeUnaligned c position n)
      | none => (s.setPort c q).notify (.nodeUnaligned c position n) := by
  have entry : ((s.mapNode c position fun e => { e with localFault := localFault }).mapNode c position
      fun e => { e with holdoff := none }.become .unsurveyed) = s.setPort c { s.port c with
        table := (s.port c).table.map fun e => if e.position = position then { e with
          localFault := localFault, holdoff := none, state := if e.state = .lost then .lost else .unsurveyed } else e } := by
    rw [State.mapNode_mapNode, State.mapNode_eq]
    · simp only [NodeEntry.become_eq]
    · exact fun _ => rfl
  have port : (((s.mapNode c position fun e => { e with localFault := localFault }).mapNode c position
      fun e => { e with holdoff := none }.become .unsurveyed).mapPort c fun p => p.unalign position) = s.setPort c q := by
    rw [entry, State.mapPort_eq_setPort, State.setPort_setPort, State.setPort_port, ChainPort.unalign_eq, hq]
  unfold State.takeNodeFlags
  dsimp only
  rw [port, if_pos rfl]
  rfl

/-! ### What follows a reading (R20, R21, R44) -/

theorem State.endPart_eq (v : State) (c : Chain) (n : RoundNumber) (cause : EndCause) : v.endPart c n cause = { v with
    ring := v.ring.map fun r => if r.number = n then { r with
      parts := r.parts.map fun q => if q.chain = c then { q with endCause := some cause } else q } else r
    ports := v.ports.set c { v.port c with transaction := none } } := by
  unfold State.endPart
  rw [State.mapRecord_eq]
  simp only [RoundRecord.mapPart_eq]
  rfl

theorem State.partOf_eq (v : State) (c : Chain) (n : RoundNumber) (x : RoundRecord) (p : ChainPart)
    (record : v.record n = some x) (part : x.part c = some p) : v.partOf c n = some p := by
  unfold State.partOf
  rw [record]
  exact part

theorem ChainPart.full_iff (p : ChainPart) : p.full = true ↔ ∀ z ∈ p.readings, z.status ≠ .missing := by
  unfold ChainPart.full
  simp

/-- R20: with an entry still MISSING the part collects on. -/
theorem State.afterReading_missing (v : State) (c : Chain) (n : RoundNumber) (x : RoundRecord) (p : ChainPart)
    (record : v.record n = some x) (part : x.part c = some p) (sent : p.state = .sent) (collects : p.endCause = none)
    (missing : ∃ z ∈ p.readings, z.status = .missing) (busy : (v.port c).transaction ≠ none) : v.afterReading c n = v := by
  have partial_ : ¬p.full = true := fun h => missing.elim fun z hz => (p.full_iff.1 h) z hz.1 hz.2
  have ends : v.endIfFull c n = v := by
    unfold State.endIfFull
    rw [v.partOf_eq c n x p record part]
    exact if_neg partial_
  have unsettled : ¬x.settled = true := fun h =>
    (x.settled_iff.1 h p (List.mem_of_find?_eq_some part)).2 sent collects
  unfold State.afterReading
  rw [ends, State.closeIfSettled_of_record record, if_neg fun h => unsettled h.2, v.drained_eq]
  exact if_neg fun h => busy h.2

/-- R20, R21, R44: with none the part ends COMPLETE, the round closes where that settles it, and a DRAINING chain stops. -/
theorem State.afterReading_full (v : State) (c : Chain) (n : RoundNumber) (x : RoundRecord) (p : ChainPart)
    (record : v.record n = some x) (part : x.part c = some p) (full : ∀ z ∈ p.readings, z.status ≠ .missing) :
    v.afterReading c n = (((v.endPart c n .complete).closeIfSettled n).drained c) := by
  unfold State.afterReading State.endIfFull
  rw [v.partOf_eq c n x p record part]
  dsimp only
  rw [if_pos (p.full_iff.2 full)]

/-- The record after the end of a part. -/
theorem State.endPart_record (v : State) (c : Chain) (n : RoundNumber) (cause : EndCause) (x : RoundRecord)
    (record : v.record n = some x) : (v.endPart c n cause).record n =
      some (x.mapPart c fun p => { p with endCause := some cause }) :=
  State.mapRecord_record (fun r => r.mapPart c fun p => { p with endCause := some cause }) (fun _ => rfl) record

/-! ### The collecting round of a chain (R17) -/

/-- The record is open, and the SENT part of the chain has not ended. -/
theorem RoundRecord.collects_iff (r : RoundRecord) (c : Chain) :
    ((!r.closed && match r.part c with | some p => p.collecting | none => false) = true) ↔
      r.closed = false ∧ ∃ p, r.part c = some p ∧ p.state = .sent ∧ p.endCause = none := by
  cases r.part c <;> simp [ChainPart.collecting]

theorem State.collectingRound_none_iff (s : State) (c : Chain) : s.collectingRound c = none ↔
    ∀ r ∈ s.ring, ¬(r.closed = false ∧ ∃ p, r.part c = some p ∧ p.state = .sent ∧ p.endCause = none) := by
  unfold State.collectingRound
  rw [List.find?_eq_none]
  exact forall₂_congr fun r _ => not_congr (r.collects_iff c)

theorem State.collectingRound_first (s : State) (c : Chain) (before after : List RoundRecord) (r : RoundRecord)
    (ring : s.ring = before ++ r :: after)
    (collects : r.closed = false ∧ ∃ p, r.part c = some p ∧ p.state = .sent ∧ p.endCause = none)
    (first : ∀ y ∈ before, ¬(y.closed = false ∧ ∃ p, y.part c = some p ∧ p.state = .sent ∧ p.endCause = none)) :
    s.collectingRound c = some r := by
  unfold State.collectingRound
  rw [List.find?_eq_some_iff_append]
  refine ⟨(r.collects_iff c).2 collects, before, after, ring, fun y hy => ?_⟩
  rw [Bool.not_eq_true', ← Bool.not_eq_true]
  exact fun h => first y hy ((y.collects_iff c).1 h)

theorem State.setReading_eq (s : State) (c : Chain) (n : RoundNumber) (x : Reading) :
    s.setReading c n x = { s with ring := s.ring.map fun r => if r.number = n then { r with
      parts := r.parts.map fun p => if p.chain = c then { p with
        readings := p.readings.map fun y => if y.position = x.position then x else y } else p } else r } := by
  unfold State.setReading
  rw [State.mapRecord_eq]
  simp only [RoundRecord.mapPart_eq, beq_iff_eq]

/-! ### The payload of a SAMPLE SET (R183, 11.1) -/

/-- Counts out of range, or a length that does not match them. -/
theorem readSampleSet_unread (low flags c t : Byte) (rest : List Byte)
    (h : ¬(1 ≤ c.toNat ∧ c.toNat ≤ 16 ∧ t.toNat ≤ 4 ∧ rest.length = 2 * c.toNat + 2 * t.toNat)) :
    (readSampleSet (low :: flags :: c :: t :: rest)).lists = none := by
  unfold readSampleSet
  refine if_neg fun g => h ?_
  simp [byteAt, inRange] at g
  omega

/-- The lists of counts in range. -/
theorem readSampleSet_lists (low flags c t : Byte) (rest : List Byte) (cells temps : List (BitVec 16))
    (least : 1 ≤ c.toNat) (most : c.toNat ≤ 16) (few : t.toNat ≤ 4) (hc : cells.length = c.toNat)
    (ht : temps.length = t.toNat) (h : rest = cells.flatMap bytes16 ++ temps.flatMap bytes16) :
    (readSampleSet (low :: flags :: c :: t :: rest)).lists = some (cells, temps) := by
  have length : (cells.flatMap bytes16).length = 2 * c.toNat := by rw [words_length, hc]
  have length' : (temps.flatMap bytes16).length = 2 * t.toNat := by rw [words_length, ht]
  have good : (inRange 1 16 (byteAt (low :: flags :: c :: t :: rest) 2) &&
      Decidable.decide (byteAt (low :: flags :: c :: t :: rest) 3 ≤ 4) &&
      (low :: flags :: c :: t :: rest).length == 4 + 2 * byteAt (low :: flags :: c :: t :: rest) 2 +
        2 * byteAt (low :: flags :: c :: t :: rest) 3) = true := by
    simp [byteAt, inRange, h, length, length']
    omega
  unfold readSampleSet
  dsimp only
  rw [if_pos good, h]
  have taken : (cells.flatMap bytes16 ++ temps.flatMap bytes16).take (2 * c.toNat) = cells.flatMap bytes16 := by
    rw [← length, List.take_left]
  have dropped : (cells.flatMap bytes16 ++ temps.flatMap bytes16).drop (2 * c.toNat) = temps.flatMap bytes16 := by
    rw [← length, List.drop_left]
  have four : (low :: flags :: c :: t :: (cells.flatMap bytes16 ++ temps.flatMap bytes16)).drop (4 + 2 * c.toNat) =
      temps.flatMap bytes16 := by
    rw [← List.drop_drop]
    exact dropped
  show some (wordsOf ((cells.flatMap bytes16 ++ temps.flatMap bytes16).take (2 * c.toNat)),
    wordsOf ((low :: flags :: c :: t :: (cells.flatMap bytes16 ++ temps.flatMap bytes16)).drop (4 + 2 * c.toNat))) = _
  rw [taken, four, wordsOf_bytes, wordsOf_bytes]

theorem readSampleSet_short (payload : List Byte) (h : payload.length < 4) : (readSampleSet payload).lists = none := by
  refine if_neg fun g => ?_
  simp at g
  omega

/-- Settles O25: what the set finds, the node flags, what follows the reading, and the payload. -/
theorem sampleSetsFillEntries : Obligations.SampleSetsFillEntries := by
  refine ⟨⟨⟨?_, ?_⟩, ?_⟩, ?_, ?_, fun payload h => ⟨readSampleSet_short payload h, ?_⟩⟩
  · rintro s c address payload set h rfl
    rw [exec_sampleSet s c address payload h, exec_sampleSetCheckFailed s c address h]
    refine ⟨fun idle => ?_, fun r p collecting part => ⟨fun other => ?_, fun none_ => ?_, ?_⟩⟩
    · rw [s.takeSampleSet_idle c address payload idle, s.takeFailedSet_idle c address idle]
      exact ⟨rfl, rfl⟩
    · rw [s.takeSampleSet_other c address payload r collecting other]
    · have found : p.missing address = none := none_
      rw [s.takeFailedSet_round c address r p collecting part, found]
      refine ⟨?_, rfl⟩
      by_cases same : (readSampleSet payload).roundLow = r.number.truncate 8
      · rw [s.takeSampleSet_round c address payload r p collecting part same, found]
      · rw [s.takeSampleSet_other c address payload r collecting same]
    · rintro x u found rfl
      have missing : p.missing address = some x := found
      refine ⟨by rw [s.takeFailedSet_round c address r p collecting part, missing]; rfl, fun same unread => ?_,
        fun cells temps e same lists node => ⟨fun counts => ?_, fun hc ht => ?_⟩⟩ <;>
        rw [s.takeSampleSet_round c address payload r p collecting part same, missing]
      · dsimp only
        rw [s.fillReading_unread c r.number x _ unread]
        rfl
      · dsimp only
        rw [s.fillReading_miscounted c r.number x _ cells temps e lists node counts]
        rfl
      · dsimp only
        rw [s.fillReading_counted c r.number x _ cells temps e lists node hc ht]
  · rintro s u c position nodeReset localFault n p q rfl rfl hq
    refine ⟨?_, ?_⟩
    · rintro rfl
      exact s.mapNode_eq c position fun e => { e with localFault := localFault }
    · rintro rfl
      rw [s.takeNodeFlags_reset c position localFault n q hq]
      refine ⟨?_, ?_⟩
      · rintro (image | ⟨i, image, off⟩)
        · rw [image]
        · rw [image]
          exact if_neg (by simp [off])
      · rintro ⟨i, image, on⟩
        rw [image]
        exact if_pos on
  · intro v t w c n x y p record part sent collects hy hw
    obtain rfl : y = x.mapPart c fun p => { p with endCause := some .complete } := hy.trans (x.mapPart_eq c _).symm
    obtain rfl : w = v.endPart c n .complete := hw.trans (v.endPart_eq c n .complete).symm
    refine ⟨v.afterReading_missing c n x p record part sent collects, fun full ht => ?_⟩
    have closes : (v.endPart c n .complete).closeIfSettled n = t := by
      rw [ht, State.closeIfSettled_of_record (v.endPart_record c n .complete x record)]
      simp only [← RoundRecord.settled_iff]
      rfl
    rw [v.afterReading_full c n x p record part full, closes, t.drained_eq]
    rfl
  · rintro s c n x r p _ rfl
    exact ⟨s.collectingRound_none_iff c, fun before after => s.collectingRound_first c before after r, r.part_iff c p,
      s.setReading_eq c n x⟩
  · rintro low flags c t rest _ rfl
    exact ⟨rfl, rfl, rfl, readSampleSet_unread low flags c t rest, readSampleSet_lists low flags c t rest⟩
  · rintro low rest rfl
    rfl

end Sys2Proof.Machine
end

section
/-! SUPPORT. The end of a collection, the place of a round in the ring, and the stages of its close. -/

namespace Sys2Proof.Machine

/-! ### The end of a collection and of a waiting claim (R20, R22) -/

theorem State.endCollection_round (s : State) (c : Chain) (cause : EndCause) (r : RoundRecord)
    (h : s.collectingRound c = some r) : s.endCollection c cause =
      ((s.endPart c r.number cause).closeIfSettled r.number).drained c := by
  unfold State.endCollection
  rw [h]
  rfl

/-- R22: the overdue claim is withdrawn as MISSED. -/
theorem exec_waitingClaimWithdrawal_due (s : State) (c : Chain) (r : RoundRecord) (h : s.held = false)
    (found : s.pendingRound = some r ∨ s.pendingRound = none ∧ s.waitingRound c = some r) (waits : r.waitsFor c = true)
    (step : r.step = .wake ∨ r.step = .patrol) (overdue : reached (r.planned + micros (s.windowOf c)) s.time = true) :
    exec (.waitingClaimWithdrawal c) s = .next (s.withdrawClaim c .missed).finish :=
  exec_waitingClaimWithdrawal s c h ((s.withdrawalDue_iff c).2 ⟨r, found, waits, step, overdue⟩)

/-! ### A place in the ring (R82, R83) -/

theorem State.record_none_iff (v : State) (n : RoundNumber) : v.record n = none ↔ ∀ x ∈ v.ring, x.number ≠ n := by
  unfold State.record
  simp [List.find?_eq_none]

/-- The ring with a place at its tail. -/
theorem placed_ring (l : List RoundRecord) (r : RoundRecord) :
    (if 32 ≤ l.length then dropOldestFree l else l) ++ [r] = (if l.length < 32 then l else dropOldestFree l) ++ [r] := by
  by_cases h : l.length < 32
  · rw [if_pos h, if_neg (by omega)]
  · rw [if_neg h, if_pos (by omega)]

theorem State.placeRound_new (v : State) (r : RoundRecord) (h : ∀ x ∈ v.ring, x.number ≠ r.number) :
    v.placeRound r = { v with ring := (if v.ring.length < 32 then v.ring else dropOldestFree v.ring) ++ [r] } := by
  unfold State.placeRound
  dsimp only
  rw [if_neg (by simp [(v.record_none_iff r.number).2 h]), placed_ring]

/-- R83: a capture marks the rounds of a number DROPPED, whether it holds one or has dropped it before. -/
theorem Capture.drop_eq (c : Capture) (n : RoundNumber) : (if c.holds n then c.drop n else c) =
    { c with held := c.held.map fun h => if h.number = n then { h with dropped := true } else h } := by
  have item : ∀ h : HeldRound, (if h.number == n && !h.dropped then { h with dropped := true } else h) =
      if h.number = n then { h with dropped := true } else h := fun h => by
    rcases h with ⟨number, kind, dropped⟩
    by_cases e : number = n <;> cases dropped <;> simp [e]
  have dropped : c.drop n = { c with held := c.held.map fun h =>
      if h.number = n then { h with dropped := true } else h } := by
    unfold Capture.drop
    rw [List.map_congr_left fun h _ => item h]
  split
  · exact dropped
  · rename_i holds
    have same : c.held.map (fun h => if h.number == n && !h.dropped then { h with dropped := true } else h) = c.held := by
      refine (List.map_congr_left fun h hh => ?_).trans c.held.map_id
      refine if_neg fun g => holds ?_
      exact List.any_eq_true.2 ⟨h, hh, g⟩
    rw [List.map_congr_left fun h _ => (item h).symm, same]

theorem State.takeOut_eq (v : State) (n : RoundNumber) : v.takeOut n = { v with
    ring := v.ring.filter fun x => x.number != n
    captures := { v.captures with list := v.captures.list.map fun c => { c with held := c.held.map fun h =>
      if h.number = n then { h with dropped := true } else h } } } := by
  unfold State.takeOut
  simp only [Capture.drop_eq]

/-- R83: a record of the same number is taken out first. -/
theorem State.placeRound_again (v u : State) (r : RoundRecord) (hu : u = v.takeOut r.number)
    (h : ∃ x ∈ v.ring, x.number = r.number) : v.placeRound r =
      { u with ring := (if u.ring.length < 32 then u.ring else dropOldestFree u.ring) ++ [r] } := by
  have found : (v.record r.number).isSome = true := by
    rw [Option.isSome_iff_ne_none, ne_eq, v.record_none_iff]
    exact fun g => h.elim fun x hx => g x hx.1 hx.2
  unfold State.placeRound
  dsimp only
  rw [if_pos found, placed_ring, hu]

/-- R82: the first record that is CLOSED and not held leaves. -/
theorem dropOldestFree_first (before after : List RoundRecord) (x : RoundRecord) (closed : x.closed = true)
    (free : x.holders = 0) (kept : ∀ y ∈ before, y.closed = false ∨ y.holders ≠ 0) :
    dropOldestFree (before ++ x :: after) = before ++ after := by
  induction before with
  | nil => exact if_pos (by simp [closed, free])
  | cons y ys ih =>
    rw [List.cons_append, dropOldestFree, if_neg, ih fun z hz => kept z (List.mem_cons_of_mem _ hz)]
    · rfl
    · rcases kept y List.mem_cons_self with h | h <;> simp [h]

/-! ### The current entry of a part (R57, R58) -/

theorem State.partCurrent_none (v : State) (p : ChainPart) (h : p.state ≠ .sent) : v.partCurrent p = none := by
  unfold State.partCurrent
  split
  · rename_i sent _
    exact absurd sent h
  · rfl

theorem State.partCurrent_sent (v : State) (p : ChainPart) (a : Instant) (sent : p.state = .sent) (h : p.actual = some a) :
    v.partCurrent p = nearestCurrent (a + micros v.target) v.converterDelay v.stream.span := by
  unfold State.partCurrent
  rw [sent, h]

theorem CurrentStream.span_absent (c : CurrentStream) (h : c.state = .absent) : c.span = [] := by
  unfold CurrentStream.span
  rw [h]

theorem CurrentStream.span_present (c : CurrentStream) (h : c.state ≠ .absent) :
    c.span = (spanBack c.history.reverse).reverse := by
  unfold CurrentStream.span
  cases e : c.state with
  | absent => exact absurd e h
  | live => rfl
  | lost => rfl

/-- R57: the span goes back to the newest entry that starts one. -/
theorem CurrentStream.span_from (c : CurrentStream) (before after : List CurrentSample) (x : CurrentSample)
    (h : c.state ≠ .absent) (history : c.history = before ++ x :: after) (starts : x.spanStart = true)
    (newer : ∀ y ∈ after, y.spanStart = false) : c.span = x :: after := by
  rw [c.span_present h, history, List.reverse_append, List.reverse_cons, List.append_assoc, List.singleton_append,
    spanBack_append _ _ _ starts fun y hy => newer y (List.mem_reverse.1 hy)]
  simp

theorem CurrentStream.span_whole (c : CurrentStream) (h : c.state ≠ .absent)
    (none_ : ∀ y ∈ c.history, y.spanStart = false) : c.span = c.history := by
  rw [c.span_present h, spanBack_whole _ fun y hy => none_ y (List.mem_reverse.1 hy), List.reverse_reverse]

/-- R58: of the words within 250 µs the nearest, the earlier of two equally near. -/
theorem nearestCurrent_first (target : Instant) (delay : Nat) (before after : List CurrentSample) (x : CurrentSample)
    (skew : CurrentSample → Int) (hskew : skew = fun x => instantDiff (x.arrival - micros delay) target)
    (low : -250 ≤ skew x) (high : skew x ≤ 250)
    (earlier : ∀ y ∈ before, -250 ≤ skew y → skew y ≤ 250 → (skew x).natAbs < (skew y).natAbs)
    (later : ∀ y ∈ after, -250 ≤ skew y → skew y ≤ 250 → (skew x).natAbs ≤ (skew y).natAbs) :
    nearestCurrent target delay (before ++ x :: after) = some ⟨x.value, skew x⟩ := by
  induction before with
  | nil =>
    rw [List.nil_append, nearestCurrent]
    subst hskew
    dsimp only at *
    rw [if_pos ⟨low, high⟩]
    cases best : nearestCurrent target delay after with
    | none => rfl
    | some e =>
      obtain ⟨y, hy, ylow, yhigh, rfl⟩ := nearestCurrent_mem target delay after e best
      exact if_neg (Nat.not_lt.2 (later y hy ylow yhigh))
  | cons y ys ih =>
    rw [List.cons_append, nearestCurrent, ih fun z hz => earlier z (List.mem_cons_of_mem _ hz)]
    have far := earlier y List.mem_cons_self
    subst hskew
    dsimp only at *
    split
    · rename_i within
      exact if_pos (far within.1 within.2)
    · rfl

/-! ### Stage 4 of the close (R21, R87, R92) -/

theorem Capture.takes_iff (c : Capture) (n : RoundNumber) :
    c.takes n = true ↔ c.complete = false ∧ c.anchor ≠ some n := by
  unfold Capture.takes
  simp

/-- R92: a capture with one more post round. -/
theorem Capture.takePost_eq (c : Capture) (n : RoundNumber) : c.takePost n = { c with
    held := c.held ++ [⟨n, .post, false⟩]
    complete := Decidable.decide (c.post ≤ (c.held.filter fun h => h.kind == .post).length + 1) } := by
  have count : (c.held ++ [(⟨n, .post, false⟩ : HeldRound)]).filter (fun h => h.kind == .post) =
      c.held.filter (fun h => h.kind == .post) ++ [⟨n, .post, false⟩] := List.filter_append ..
  unfold Capture.takePost Capture.countPost
  dsimp only
  rw [count, List.length_append]
  rfl

theorem State.takePostRound_eq (v : State) (n : RoundNumber) (takers : List Capture)
    (h : takers = v.captures.list.filter fun c => !c.complete && c.anchor != some n) :
    v.takePostRound n = takers.foldl (fun t c => t.noticeDone (c.takePost n)) { v with
      captures := { v.captures with list := v.captures.list.map fun c =>
        if c.complete = false ∧ c.anchor ≠ some n then c.takePost n else c }
      ring := v.ring.map fun r => if r.number == n then { r with holders := r.holders + takers.length } else r } := by
  have list : (v.captures.list.map fun c => if c.takes n then c.takePost n else c) = v.captures.list.map fun c =>
      if c.complete = false ∧ c.anchor ≠ some n then c.takePost n else c := by
    simp only [Capture.takes_iff]
  rw [h, ← list]
  rfl

theorem State.postTakers_iff (v : State) (n : RoundNumber) :
    v.postTakers n = true ↔ (v.captures.list.filter fun c => !c.complete && c.anchor != some n) ≠ [] := by
  unfold State.postTakers
  rw [List.any_eq_true, ne_eq, List.filter_eq_nil_iff]
  simp [Capture.takes]

/-- The record is CLOSED, and offered or not as it was. -/
theorem State.closed_reports (v : State) (n : RoundNumber) :
    (v.mapRecord n fun r => { r with closed := true }).reports n = v.reports n := by
  unfold State.reports
  cases r : v.record n with
  | some x => rw [State.mapRecord_record (fun r => { r with closed := true }) (fun _ => rfl) r]
  | none =>
    have none_ : (v.mapRecord n fun r => { r with closed := true }).record n = none := by
      rw [State.record_none_iff, State.mapRecord_eq]
      intro x hx
      obtain ⟨y, hy, rfl⟩ := List.mem_map.1 hx
      have := (v.record_none_iff n).1 r y hy
      rwa [if_neg this]
    rw [none_]

/-- R21, entry 3: the record is CLOSED; the captures take it, and it is offered, in no fixed order. -/
theorem State.finishRound_eq (v : State) (n : RoundNumber) : v.finishRound n =
    (v.mapRecord n fun r => { r with closed := true }).anyOrder
      ((if v.postTakers n then [fun s : State => s.takePostRound n] else []) ++
        (if v.reports n then [fun s : State => s.reportRound n] else [])) := by
  rw [← v.closed_reports n]
  rfl

theorem State.foldl_noticeDone_ring (f : Capture → Capture) (l : List Capture) (v : State) :
    (l.foldl (fun t c => t.noticeDone (f c)) v).ring = v.ring := by
  induction l generalizing v with
  | nil => rfl
  | cons c l ih =>
    have one : (v.noticeDone (f c)).ring = v.ring := by
      unfold State.noticeDone
      split
      · obtain ⟨link, h⟩ := v.notifyAwake_frame (.captureDone (f c).id (f c).cause (f c).anchor (f c).countHeld)
        rw [h]
      · rfl
    exact (ih _).trans one

/-- R21: after the close no record of the number is COLLECTING. -/
theorem State.closeStages_closed (v : State) (n : RoundNumber) :
    ∀ r ∈ (v.closeStages n).ring, r.number = n → r.closed = true := by
  refine State.anyOrder_keeps _ (P := fun u => ∀ r ∈ u.ring, r.number = n → r.closed = true) _ (fun f hf u hu => ?_) ?_
  · have post : ∀ r ∈ (u.takePostRound n).ring, r.number = n → r.closed = true := by
      rw [u.takePostRound_eq n _ rfl, State.foldl_noticeDone_ring fun c => c.takePost n]
      intro r hr
      obtain ⟨x, hx, rfl⟩ := List.mem_map.1 hr
      split <;> exact hu x hx
    have report : (u.reportRound n).ring = u.ring := by
      unfold State.reportRound
      split <;> rfl
    rcases List.mem_append.1 hf with hf | hf <;> split at hf
    · exact List.mem_singleton.1 hf ▸ post
    · cases hf
    · rw [List.mem_singleton.1 hf, report]
      exact hu
    · cases hf
  · intro r hr
    obtain ⟨x, _, rfl⟩ := List.mem_map.1 hr
    split
    · exact fun _ => rfl
    · rename_i other
      exact fun e => absurd (beq_iff_eq.2 e) other

/-! ### The parts of the statement -/

/-- R20, R22: the deadline, the end of the TRIGGER frame, and the overdue claim. -/
theorem exec_collectionEnds (s : State) (c : Chain) (r : RoundRecord) (p : ChainPart) (a : Instant) (h : s.held = false)
    (collecting : s.collectingRound c = some r) (part : r.part c = some p) (actual : p.actual = some a) :
    (reached (a + micros (s.windowOf c)) s.time = true → exec (.collectionDeadline c) s =
      .next (((s.endPart c r.number .deadline).closeIfSettled r.number).drained c).finish) ∧
    (p.readings = [] → reached (a + 40#32) s.time = true → exec (.triggerFrameEnd c) s =
      .next (((s.endPart c r.number .complete).closeIfSettled r.number).drained c).finish) := by
  refine ⟨fun due => ?_, fun empty due => ?_⟩
  · rw [exec_collectionDeadline s c h ((s.deadlineDue_iff c).2 ⟨r, p, a, collecting, part, actual, due⟩),
      s.endCollection_round c _ r collecting]
  · rw [exec_triggerFrameEnd s c h ((s.triggerEndDue_iff c).2 ⟨r, p, a, collecting, part, actual, empty, due⟩),
      s.endCollection_round c _ r collecting]

/-- R21, R87, R92: stage 4, by whether a capture takes the round and whether it is offered. -/
theorem State.finishRound_cases (v w : State) (n : RoundNumber) (takers : List Capture)
    (hw : w = v.mapRecord n fun r => { r with closed := true })
    (ht : takers = v.captures.list.filter fun c => !c.complete && c.anchor != some n) :
    (takers = [] → v.reports n = false → v.finishRound n = w) ∧
    (takers ≠ [] → v.reports n = false → v.finishRound n = ({ w with free := w.free + 1 } : State).takePostRound n) ∧
    (takers = [] → v.reports n = true → v.finishRound n = ({ w with free := w.free + 1 } : State).reportRound n) ∧
    (takers ≠ [] → v.reports n = true →
      v.finishRound n = (({ w with free := w.free + 2 } : State).takePostRound n).reportRound n ∨
      v.finishRound n = (({ w with free := w.free + 2 } : State).reportRound n).takePostRound n) := by
  subst hw
  have taken : takers ≠ [] → v.postTakers n = true := fun h => (v.postTakers_iff n).2 (ht ▸ h)
  have untaken : takers = [] → v.postTakers n = false := fun h =>
    Bool.eq_false_iff.2 fun g => (v.postTakers_iff n).1 g (ht ▸ h)
  rw [v.finishRound_eq n]
  refine ⟨fun t r => ?_, fun t r => ?_, fun t r => ?_, fun t r => ?_⟩
  · rw [untaken t, r]
    rfl
  · rw [taken t, r]
    rfl
  · rw [untaken t, r]
    rfl
  · rw [taken t, r]
    exact State.anyOrder_two _ _ _

theorem State.noticeDone_eq (v : State) (c : Capture) : v.noticeDone c = if c.complete = true then
    v.notifyAwake (.captureDone c.id c.cause c.anchor (c.held.filter fun h => !h.dropped).length) else v := rfl

/-- R87: the record is offered as it stands, where its report flag is set. -/
theorem State.reportRound_record (v : State) (n : RoundNumber) (r : RoundRecord) (h : v.record n = some r) :
    v.reportRound n = v.offer (.roundReport r) ∧ v.reports n = r.report := by
  unfold State.reportRound State.reports
  rw [h]
  exact ⟨rfl, rfl⟩

/-- R15, R32, R57: the window, the target and the converter delay of the working image. -/
theorem State.collection_ofImage (s : State) (c : Chain) (i : Image) (h : s.image = some i) :
    s.windowOf c = (i.timing c).window ∧ s.target = (i.timing .A).target ∧ s.converterDelay = i.shared.converterDelay := by
  unfold State.windowOf State.target State.converterDelay
  rw [s.shared_of_image h, h]
  exact ⟨rfl, rfl, rfl⟩

/-- Settles O26: the ends of a collection, the place in the ring, the current entries, and stage 4. -/
theorem collectionsEnd : Obligations.CollectionsEnd := by
  refine ⟨⟨⟨exec_collectionEnds, ?_, ?_, fun v c n cause x => ⟨rfl, fun record => ⟨?_, ?_, ?_⟩, v.closeStages_closed n⟩⟩,
    ?_, dropOldestFree_first, fun v n => ?_, ?_, ?_⟩, fun s i r c f h => ?_⟩
  · rintro s c r marked h pending waits step overdue open_ rfl
    rw [exec_waitingClaimWithdrawal_due s c r h (.inl pending) waits step overdue]
    refine ⟨fun unsettled closed => ?_, fun settled => ?_⟩
    · rw [s.withdrawClaim_pending_waits c .missed r _ pending waits rfl (by simp [unsettled]) closed]
    · rw [s.withdrawClaim_pending_settled c .missed r _ pending waits open_ rfl settled]
  · rintro s u c r marked before after h none_ ring open_ waits first step overdue hm hu
    rw [exec_waitingClaimWithdrawal_due s c r h (.inr ⟨none_, s.waitingRound_first c before after r ring open_ waits
      fun x hx => (first x hx).2⟩) waits step overdue,
      s.withdrawClaim_placed u c .missed before after r marked none_ ring open_ waits first hm hu]
    exact ⟨fun unsettled => by rw [if_neg (by simp [unsettled])], fun settled => by rw [if_pos settled]⟩
  · exact fun closes => (State.closeIfSettled_of_record record).trans (if_pos closes)
  · exact fun stays => (State.closeIfSettled_of_record record).trans (if_neg stays)
  · intro k step
    unfold State.afterClose
    rw [step]
  · intro v u r hu
    exact ⟨v.placeRound_new r, v.placeRound_again u r (hu.trans (v.takeOut_eq r.number).symm)⟩
  · exact ⟨rfl, v.partCurrent_none, v.partCurrent_sent, v.stream.span_absent,
      fun before x after => v.stream.span_from before after x, v.stream.span_whole⟩
  · rintro target delay words skew hskew
    refine ⟨fun far => nearestCurrent_none target delay words (by subst hskew; exact far),
      fun before x after h low high earlier later => ?_⟩
    rw [h]
    exact nearestCurrent_first target delay before after x skew hskew low high earlier later
  · rintro v w n takers taken hw ht htaken
    obtain rfl : taken = fun c => c.takePost n := htaken.trans (funext fun c => (c.takePost_eq n).symm)
    obtain ⟨none_, post, report, both⟩ := v.finishRound_cases w n takers hw ht
    exact ⟨none_, post, report, both, v.takePostRound_eq n takers ht, v.noticeDone_eq, v.reportRound_record n, rfl⟩
  · obtain ⟨window, target, delay⟩ := s.collection_ofImage c i h
    exact ⟨window, target, delay, fun _ _ => rfl, r.mapPart_eq c f, r.settled_iff⟩

end Sys2Proof.Machine
end

section
/-! SUPPORT. The oscillator, the ROUSEs, LINK_OPEN, a round created, and the change to RUN. -/

namespace Sys2Proof.Machine

/-! ### The oscillator (R102, R143, R148) -/

/-- R102: a channel whose feedback is sampled again. -/
def State.resumed (s : State) (k : ChannelId) (c : Channel) (level : Bool) : Channel := { c with
  rawClosed := level
  debounceExpiry := if level = c.debouncedClosed then none else some (s.time + millis (s.debounce k)) }

theorem State.startOscillator_eq (s : State) : s.startOscillator = { s with
    oscillator := true
    channels := ⟨s.resumed .K1 s.channels.k1 s.pins.kfb.k1, s.resumed .K2 s.channels.k2 s.pins.kfb.k2,
      s.resumed .K3 s.channels.k3 s.pins.kfb.k3, s.resumed .K4 s.channels.k4 s.pins.kfb.k4⟩ } := rfl

/-- R143, R148: the oscillator runs, and the phase that it was awaited for begins. -/
theorem State.oscillatorReady_eq (s v : State) (hv : v = { s.startOscillator with
    sleepWork := { s.sleepWork with phaseExpiry := none } }) :
    (s.sleep.op = .patrol → s.oscillatorReady = v.patrolRousing) ∧
      (s.sleep.op = .waking → s.oscillatorReady = v.wakeRousing) := by
  have phase : s.startOscillator.setSleepWork (fun w => { w with phaseExpiry := none }) = v := by rw [hv]; rfl
  have op : v.sleep.op = s.sleep.op := by rw [hv]; rfl
  unfold State.oscillatorReady
  dsimp only
  rw [phase, op]
  exact ⟨fun h => by rw [h], fun h => by rw [h]⟩

theorem State.nodesReady_eq (s : State) : (s.sleep.op = .patrol → s.nodesReady = s.patrolRound) ∧
    (s.sleep.op = .waking → s.nodesReady = s.linkOpen) := by
  unfold State.nodesReady
  exact ⟨fun h => by rw [h], fun h => by rw [h]⟩

/-! ### The ROUSEs of a patrol and of a wake (R143, R148) -/

/-- A ROUSE joins each of the chains, and is awaited there. -/
def State.rouseSent (t : State) (on : Chain → Bool) : State := { t with
  sleep := { t.sleep with phase := some .rousing }
  ports := ⟨{ t.ports.a with internal := t.ports.a.internal ++ if on .A then [⟨0, 0xF3#8, [], .rouse⟩] else [] },
    { t.ports.b with internal := t.ports.b.internal ++ if on .B then [⟨0, 0xF3#8, [], .rouse⟩] else [] }⟩
  sleepWork := { t.sleepWork with awaiting := ⟨t.sleepWork.awaiting.a || on .A, t.sleepWork.awaiting.b || on .B⟩ } }

/-- The ROUSEs, or with none to send what follows them at once. -/
theorem State.rouse_eq (t : State) (on : Chain → Bool) (next : State → State) :
    (if (Chain.all.filter on).isEmpty then next (t.setSleep fun x => { x with phase := some .rousing })
      else (t.setSleep fun x => { x with phase := some .rousing }).broadcast .rouse (Chain.all.filter on)) =
    if on .A = false ∧ on .B = false then next (t.rouseSent on) else t.rouseSent on := by
  have sent : (t.setSleep fun x => { x with phase := some .rousing }).broadcast .rouse (Chain.all.filter on) =
      t.rouseSent on := State.broadcast_eq _ _ on
  by_cases none_ : on .A = false ∧ on .B = false
  · have empty : Chain.all.filter on = [] := by simp [Chain.all, none_.1, none_.2]
    rw [empty] at sent ⊢
    rw [if_pos none_, ← sent]
    rfl
  · rw [if_neg none_, sent, Chain.filter_isEmpty, if_neg (by simpa using none_)]

/-- R136: the patrol chains in order. -/
theorem patrolTable_chains_eq (i : Image) :
    i.patrolTable.chains = Chain.all.filter fun c => Decidable.decide (c ∈ i.patrolTable.chains) := chainsOf_eq_filter _

theorem State.patrolRousing_eq (s : State) (on : Chain → Bool) (i : Image) (h : s.image = some i)
    (hon : ∀ c, on c = true ↔ c ∈ i.patrolTable.chains ∧ (s.port c).run = .running) : s.patrolRousing =
      if on .A = false ∧ on .B = false then
        (State.rouseSent { s with sleepWork := { s.sleepWork with phaseExpiry := none, roused := ⟨on .A, on .B⟩ } }
          on).patrolRound
      else State.rouseSent { s with sleepWork := { s.sleepWork with phaseExpiry := none, roused := ⟨on .A, on .B⟩ } } on := by
  have chains : i.patrolTable.chains.filter s.runs = Chain.all.filter on := by
    rw [patrolTable_chains_eq i, List.filter_filter]
    refine List.filter_congr fun c _ => Bool.eq_iff_iff.2 ?_
    rw [hon c, Bool.and_eq_true, s.runs_iff, decide_eq_true_iff, and_comm]
  have roused : ∀ c, (Chain.all.filter on).contains c = on c := fun c => by
    rw [Bool.eq_iff_iff, List.contains_iff_mem, List.mem_filter]
    cases c <;> simp [Chain.all]
  rw [← State.rouse_eq]
  unfold State.patrolRousing
  rw [s.patrol_of_image h]
  dsimp only
  rw [chains, roused, roused]
  rfl

theorem State.wakeRousing_eq (s : State) (on : Chain → Bool)
    (hon : ∀ c, on c = true ↔ (s.port c).run = .running ∧ (s.port c).resting = true) : s.wakeRousing =
      if on .A = false ∧ on .B = false then (s.rouseSent on).linkOpen else s.rouseSent on := by
  have chains : s.runningChains.filter s.resting = Chain.all.filter on := by
    unfold State.runningChains
    rw [List.filter_filter]
    refine List.filter_congr fun c _ => Bool.eq_iff_iff.2 ?_
    rw [hon c, Bool.and_eq_true, s.runs_iff, and_comm]
    rfl
  rw [← State.rouse_eq]
  unfold State.wakeRousing
  rw [chains]

/-! ### LINK_OPEN and the rounds of a patrol and of a wake (R22, R148, R149, R171) -/

theorem State.openForWake_eq (s : State) (r : WakeRecord)
    (hr : r = ⟨s.sleep.latched, s.sleep.sleepInstant, s.sleepWork.wakingSince, s.sleep.patrolCount, s.sleep.missCount⟩) :
    s.openForWake = { s with
      link := { s.link with
        state := .opened, queue := [⟨.notice (.woke r), false⟩], owed := 0, lastDiscarded := false, lastCheckFailed := false
        unsolicitedDiscard := false, resetExpiry := none, hwake := true }
      sleep := { s.sleep with lastWake := some r, latched := .empty } } := by
  subst hr
  rfl

/-- The PATROL round is created, and is judged at once where every part is STOPPED. -/
theorem State.patrolRound_eq (s v : State) (i : Image) (r : RoundRecord) (h : s.image = some i)
    (hv : v = { s with
      sleep := { s.sleep with phase := some .round }, sleepWork := { s.sleepWork with phaseExpiry := none } })
    (hr : r = s.newRound .patrol i.patrolTable.kind false i.patrolTable.chains s.time) :
    s.patrolRound = if r.neverSent = true then (v.createRound r).judgePatrol r else v.createRound r := by
  have phase : (s.setSleep fun x => { x with phase := some .round }).setSleepWork
      (fun w => { w with phaseExpiry := none }) = v := hv.symm
  have patrol : v.patrol = some i.patrolTable := v.patrol_of_image (by rw [hv]; exact h)
  have round : v.newRound .patrol i.patrolTable.kind false i.patrolTable.chains v.time = r := by rw [hv, hr]; rfl
  unfold State.patrolRound
  dsimp only
  rw [phase, patrol]
  dsimp only
  rw [round]

/-- LINK_OPEN: the cursor runs at once, or first the WAKE round is created. -/
theorem State.linkOpen_eq (s w : State) (i : Image) (h : s.image = some i)
    (hw : w = { s.openForWake with sleepWork := { s.sleepWork with phaseExpiry := none } }) (x : State)
    (hx : x = { w with
      cursor := { s.cursor with state := .starting }, sleep := { w.sleep with phase := some .wakeRound } }) (c : RoundRecord)
    (hc : c = s.newRound .wake i.patrolTable.kind true (Chain.all.filter s.runs) s.time) : s.linkOpen =
      if i.patrolTable.firstImmediate = true then
        if c.neverSent = true then (x.createRound c).wakeRoundClosed else x.createRound c
      else w.wakeRoundClosed := by
  have opened : s.openForWake.setSleepWork (fun w => { w with phaseExpiry := none }) = w := hw.symm
  have patrol : w.patrol = some i.patrolTable := w.patrol_of_image (by rw [hw, s.openForWake_eq _ rfl]; exact h)
  have starting : ({ w with cursor := { w.cursor with state := .starting } } : State).setSleep
      (fun x => { x with phase := some .wakeRound }) = x := by rw [hx, hw]; rfl
  have round : x.newRound .wake i.patrolTable.kind true x.runningChains x.time = c := by rw [hx, hw, hc]; rfl
  unfold State.linkOpen
  dsimp only
  rw [opened, patrol]
  dsimp only
  rw [starting, round]
  rfl

/-! ### A round created (R10, R12, R13) -/

/-- The TRIGGER leaves on each chain of a SENT part. -/
theorem State.sendTriggers_eq (parts : List ChainPart) (t : State) :
    parts.foldl (fun (s : State) (p : ChainPart) => if p.state = .sent then s.sendTrigger p.chain else s) t = { t with
      ports := ⟨{ t.ports.a with transaction :=
          if ∃ p ∈ parts, p.chain = .A ∧ p.state = .sent then some .trigger else t.ports.a.transaction },
        { t.ports.b with transaction :=
          if ∃ p ∈ parts, p.chain = .B ∧ p.state = .sent then some .trigger else t.ports.b.transaction }⟩ } := by
  induction parts generalizing t with
  | nil => simp
  | cons p rest ih =>
    rw [List.foldl_cons, ih]
    by_cases sent : p.state = .sent
    · cases chain : p.chain <;>
        simp [sent, chain, State.sendTrigger, State.mapPort, State.setPort, State.port, PerChain.set, PerChain.get]
    · simp [sent]

/-- R13: the TRIGGERs have left, and the round has its place by the states of its parts. -/
theorem State.createRound_cases (s u : State) (r : RoundRecord) (sent : Chain → Bool)
    (hsent : ∀ c, sent c = true ↔ ∃ p ∈ r.parts, p.chain = c ∧ p.state = .sent)
    (hu : u = { s with
      roundCounter := r.number
      ports := ⟨{ s.ports.a with transaction := if sent .A then some .trigger else s.ports.a.transaction },
        { s.ports.b with transaction := if sent .B then some .trigger else s.ports.b.transaction }⟩ }) :
    s.createRound r = if ∃ p ∈ r.parts, p.state = .sent then u.placeRound r
      else if ∃ p ∈ r.parts, p.state = .waiting then { u with pendingRound := some r }
      else (u.placeRound r).closeStages r.number := by
  have triggers : r.parts.foldl (fun (s : State) (p : ChainPart) => if p.state = .sent then s.sendTrigger p.chain else s)
      { s with roundCounter := r.number } = u := by
    rw [State.sendTriggers_eq, hu]
    simp only [hsent]
  unfold State.createRound
  dsimp only
  rw [triggers]
  unfold State.settleNew
  simp only [List.any_eq_true, beq_iff_eq]

/-! ### Becoming RUN (R147 to R149) -/

theorem WakeSet.isEmpty_iff (w : WakeSet) : w.isEmpty = true ↔ w = .empty := beq_iff_eq

/-- R149: the second WOKE, where causes were latched since. -/
theorem State.secondWoke_eq (w : State) : w.secondWoke = if w.sleep.latched = .empty then w else
    ({ w with sleep := { w.sleep with
      lastWake := w.sleep.lastWake.map fun r => { r with causes := r.causes.union w.sleep.latched }
      latched := .empty } } : State).notify (.woke (w.wakeRecord w.sleep.latched)) := by
  unfold State.secondWoke
  simp only [WakeSet.isEmpty_iff]
  rfl

theorem State.becomeRun_eq (s u w : State) (hu : u = { s with
      sleep := { s.sleep with op := .run, phase := none, trackers := ⟨.inactive, .inactive, .inactive⟩ }
      sleepWork := { s.sleepWork with senseOut := false, pulseStart := none, phaseExpiry := none } })
    (hw : w = (u.pendingSurvey .A).pendingSurvey .B) : s.becomeRun =
      if s.sleep.latched = .empty then w else ({ w with sleep := { w.sleep with
        lastWake := s.sleep.lastWake.map fun r => { r with causes := r.causes.union s.sleep.latched }
        latched := .empty } } : State).notify (.woke ⟨s.sleep.latched, s.sleep.sleepInstant, s.sleepWork.wakingSince,
          s.sleep.patrolCount, s.sleep.missCount⟩) := by
  have run : s.becomeRun = w.secondWoke := by rw [hw, hu]; rfl
  obtain ⟨ports, link, a⟩ := u.pendingSurvey_frame .A
  obtain ⟨ports', link', b⟩ := (u.pendingSurvey .A).pendingSurvey_frame .B
  have sleep : w.sleep = u.sleep := by rw [hw, b, a]
  have work : w.sleepWork = u.sleepWork := by rw [hw, b, a]
  rw [run, w.secondWoke_eq]
  unfold State.wakeRecord
  rw [sleep, work, hu]

/-! ### The end of a REST or a ROUSE that is awaited (R143, R148) -/

theorem State.awaitsEnd_iff (s : State) (c : Chain) (rest : Bool) : s.awaitsEnd c rest = true ↔
    s.sleepWork.awaiting.get c = true ∧ s.sleep.phase = some (if rest then .resting else .rousing) := by
  unfold State.awaitsEnd
  simp

/-- With one chain no longer awaited, the other decides. -/
theorem State.broadcastsEnded_other (s : State) (c other : Chain) (h : other ≠ c) :
    ({ s with sleepWork := { s.sleepWork with awaiting := s.sleepWork.awaiting.set c false } } : State).broadcastsEnded =
      !s.sleepWork.awaiting.get other := by
  unfold State.broadcastsEnded
  cases c <;> cases other
  · exact absurd rfl h
  · simp [PerChain.set, PerChain.get]
  · simp [PerChain.set, PerChain.get]
  · exact absurd rfl h

theorem State.broadcastEnded_eq (s u : State) (c other : Chain) (rest : Bool) (h : other ≠ c)
    (hu : u = { s with sleepWork := { s.sleepWork with awaiting := s.sleepWork.awaiting.set c false } })
    (awaited : s.sleepWork.awaiting.get c = true) (phase : s.sleep.phase = some (if rest then .resting else .rousing)) :
    s.broadcastEnded c rest = if s.sleepWork.awaiting.get other = true then u else u.broadcastsDone := by
  subst hu
  unfold State.broadcastEnded
  rw [if_pos ((s.awaitsEnd_iff c rest).2 ⟨awaited, phase⟩)]
  show (if ({ s with sleepWork := { s.sleepWork with awaiting := s.sleepWork.awaiting.set c false } } : State).broadcastsEnded
    then _ else _) = _
  rw [s.broadcastsEnded_other c other h]
  cases s.sleepWork.awaiting.get other <;> rfl

theorem State.broadcastEnded_none (s : State) (c : Chain) (rest : Bool)
    (h : s.sleepWork.awaiting.get c = false ∨ s.sleep.phase ≠ some (if rest then .resting else .rousing)) :
    s.broadcastEnded c rest = s := by
  refine if_neg fun g => ?_
  obtain ⟨awaited, phase⟩ := (s.awaitsEnd_iff c rest).1 g
  exact h.elim (fun a => by simp [a] at awaited) fun p => p phase

/-- In ENTERING nothing follows the last REST by itself. -/
theorem State.broadcastsDone_entering (u : State) (h : u.sleep.op = .entering) : u.broadcastsDone = u := by
  unfold State.broadcastsDone
  rw [h]

/-- The node wake time runs. -/
theorem State.broadcastsDone_rousing (u : State) (i : Image) (h : u.image = some i) (phase : u.sleep.phase = some .rousing)
    (op : u.sleep.op = .patrol ∨ u.sleep.op = .waking) : u.broadcastsDone = { u with
      sleep := { u.sleep with phase := some .nodeWake }
      sleepWork := { u.sleepWork with phaseExpiry := some (u.time + millis i.patrolTable.nodeWake) } } := by
  have wakes : u.broadcastsDone = u.enterNodeWake := by
    unfold State.broadcastsDone
    rcases op with op | op <;> rw [op, phase]
  rw [wakes]
  unfold State.enterNodeWake
  rw [u.patrol_of_image h]
  rfl

theorem State.broadcastsDone_resting (u : State) (phase : u.sleep.phase = some .resting) (op : u.sleep.op = .patrol) :
    u.broadcastsDone = u.endPatrol := by
  unfold State.broadcastsDone
  rw [op, phase]

theorem WakeSet.union_has (v w : WakeSet) (c : WakeCause) : (v.union w).has c = (v.has c || w.has c) := by
  cases c with
  | input n => cases n <;> rfl
  | _ => rfl

/-- A part that is created on a RUNNING chain is not STOPPED. -/
theorem State.newRound_neverSent (s : State) (kind : SampleKind) (report : Bool) (planned : Instant) :
    (s.newRound .wake kind report (Chain.all.filter s.runs) planned).neverSent = true ↔
      ∀ c, (s.port c).run ≠ .running := by
  rw [RoundRecord.neverSent_iff]
  refine ⟨fun h c runs => ?_, fun h p hp => ?_⟩
  · have listed : c ∈ Chain.all.filter s.runs :=
      List.mem_filter.2 ⟨by cases c <;> decide, (s.runs_iff c).2 runs⟩
    have stopped := h _ (List.mem_map_of_mem listed)
    cases t : (s.port c).transaction with
    | none =>
      rw [(s.newPart_sent planned c runs t).1] at stopped
      cases stopped
    | some x =>
      rw [s.newPart_waiting planned c runs (by simp [t])] at stopped
      cases stopped
  · obtain ⟨c, hc, _⟩ := List.mem_map.1 hp
    exact absurd ((s.runs_iff c).1 (List.mem_filter.1 hc).2) (h c)

/-- Settles O50: the phases by name, the rounds created, the change to RUN, and the broadcasts that end. -/
theorem oscillatorAndNodesWake : Obligations.OscillatorAndNodesWake := by
  refine ⟨⟨?_, ?_, fun s r => s.openForWake_eq r, ?_, ?_, ?_, ?_⟩, WakeSet.union_has⟩
  · rintro s v due resumed h expiry r rfl hv
    obtain ⟨patrol, wake⟩ := s.oscillatorReady_eq v (hv.trans (by rw [s.startOscillator_eq]; rfl))
    obtain ⟨patrol', wake'⟩ := s.nodesReady_eq
    have due' : expired s.sleepWork.phaseExpiry s.time = true := (expired_iff _ _).2 ⟨due, expiry, r⟩
    refine ⟨fun phase => ?_, fun phase => ?_⟩
    · have osc := exec_oscStartEnd s h (by simp [State.oscDue, phase, due'])
      exact ⟨fun op => by rw [osc, patrol op], fun op => by rw [osc, wake op]⟩
    · have nodes := exec_nodeWakeEnd s h (by simp [State.nodeWakeDue, phase, due'])
      exact ⟨fun op => by rw [nodes, patrol' op], fun op => by rw [nodes, wake' op]⟩
  · rintro s on i rousing u h rfl rfl
    exact ⟨s.patrolRousing_eq on i h, s.wakeRousing_eq on⟩
  · rintro s v w i r run h hv hr
    have created := s.patrolRound_eq v i r h hv hr
    refine ⟨fun ⟨p, hp, live⟩ => ?_, fun stopped => ?_, ?_⟩
    · rw [created, if_neg fun g => live ((r.neverSent_iff.1 g) p hp)]
    · rw [created, if_pos (r.neverSent_iff.2 stopped)]
    · rintro rfl hw
      have runs : (Chain.all.filter fun c => Decidable.decide ((s.port c).run = .running)) = Chain.all.filter s.runs :=
        List.filter_congr fun c _ => Bool.eq_iff_iff.2 (decide_eq_true_iff.trans (s.runs_iff c).symm)
      refine ⟨fun off => ?_, fun x c on hx hc => ?_, ?_⟩
      · rw [s.linkOpen_eq w i h hw _ rfl _ rfl, if_neg (by simp [off])]
        rfl
      · have hc' : c = s.newRound .wake i.patrolTable.kind true (Chain.all.filter s.runs) s.time := by
          rw [hc, hr, runs]
          rfl
        rw [s.linkOpen_eq w i h hw x hx c hc', if_pos on, hc']
        refine ⟨fun ⟨d, hd⟩ => if_neg fun g => (s.newRound_neverSent _ _ _).1 g d hd, fun none_ => ?_⟩
        rw [if_pos ((s.newRound_neverSent _ _ _).2 none_)]
        rfl
      · intro t y wake
        unfold State.afterClose
        rw [wake]
        rfl
  · rintro s u r sent hsent hu
    rw [s.createRound_cases u r sent hsent hu]
    refine ⟨fun some_ => if_pos some_, fun none_ waiting => ?_, fun none_ => ?_⟩
    · rw [if_neg fun ⟨p, hp, g⟩ => none_ p hp g, if_pos waiting]
    · rw [if_neg fun ⟨p, hp, g⟩ => (none_ p hp).1 g, if_neg fun ⟨p, hp, g⟩ => (none_ p hp).2 g]
  · rintro s u w hu hw
    rw [s.becomeRun_eq u w hu hw]
    exact ⟨fun h => if_pos h, fun h => if_neg h⟩
  · rintro s u c other rest ne hu
    refine ⟨s.broadcastEnded_none c rest, fun awaited phase => ?_⟩
    have op : u.sleep.op = s.sleep.op := by rw [hu]
    have phase' : u.sleep.phase = s.sleep.phase := by rw [hu]
    rw [s.broadcastEnded_eq u c other rest ne hu awaited phase]
    refine ⟨fun h => ?_, fun last => ⟨fun i rouse sleeps image => ?_, fun rests patrol => ?_⟩⟩
    · split
      · rfl
      · rename_i last
        exact u.broadcastsDone_entering (op.trans (h.resolve_left last))
    · rw [if_neg (by simp [last]), u.broadcastsDone_rousing i (by rw [hu]; exact image)
        (by rw [phase', phase, rouse]; rfl) (by rw [op]; exact sleeps), hu]
    · rw [if_neg (by simp [last])]
      exact u.broadcastsDone_resting (by rw [phase', phase, rests]; rfl) (op.trans patrol)

end Sys2Proof.Machine
end

section
/-! SUPPORT. The bytes of the requests, of the upward chain frames and of a chain line. -/

namespace Sys2Proof.Machine

/-! ### The frames of the Host Link (R176, R184, R185) -/

/-- The four bytes of a word, put together again. -/
theorem word32_bytes (x : BitVec 32) :
    word32 ((x >>> 24).truncate 8) ((x >>> 16).truncate 8) ((x >>> 8).truncate 8) (x.truncate 8) = x := by
  unfold word32
  refine BitVec.eq_of_getLsbD_eq fun n hn => ?_
  simp only [BitVec.getLsbD_append, BitVec.truncate_eq_setWidth, BitVec.getLsbD_setWidth, BitVec.getLsbD_ushiftRight]
  grind

/-- The payload that carries a request is read as that request. -/
theorem decodePayload_encodePayload (i : Instr) (kind : Byte) (payload : List Byte)
    (h : encodePayload i = some (kind, payload)) : decodePayload kind payload = .request i := by
  cases i with
  | readRound tag n =>
    cases h
    exact congrArg (fun n => Inbound.request (.readRound tag n)) (word16_bytes n)
  | updateOpen tag epoch =>
    cases h
    exact congrArg (fun e => Inbound.request (.updateOpen tag e)) (word32_bytes epoch)
  | updateCommit tag word =>
    cases h
    exact congrArg (fun w => Inbound.request (.updateCommit tag w)) (word32_bytes word)
  | _ => cases h <;> rfl

/-- R174: the frame of a request is a MANAGE or a PASS frame within the greatest length. -/
theorem encodePayload_bounds (i : Instr) (kind : Byte) (payload : List Byte) (wf : i.wf = true)
    (h : encodePayload i = some (kind, payload)) : (kind = 1#8 ∨ kind = 2#8) ∧ payload.length ≤ 2043 := by
  cases i with
  | pass c p o t data =>
    cases h
    have : data.length ≤ 2039 := by simpa [Instr.wf] using wf
    exact ⟨.inr rfl, by simp only [List.length_cons]; omega⟩
  | updateStage t b i r =>
    cases h
    have : r.length ≤ 2039 := by simpa [Instr.wf] using wf
    exact ⟨.inl rfl, by simp only [List.length_cons]; omega⟩
  | _ => cases h <;> exact ⟨.inl rfl, by simp [bytes16, bytes32]⟩

theorem decodeInbound_encodeInbound (i : Instr) (bytes extra : List Byte) (wf : i.wf = true)
    (h : encodeInbound i = some bytes) : decodeInbound (bytes ++ extra) = .request i := by
  obtain ⟨⟨kind, payload⟩, encoded, rfl⟩ := Option.map_eq_some_iff.1 h
  obtain ⟨k, n⟩ := encodePayload_bounds i kind payload wf encoded
  rw [decodeInbound_frame kind payload extra k n]
  exact decodePayload_encodePayload i kind payload encoded

/-! ### The upward frames of a chain (R23, R183) -/

theorem upwardGreatest_eq (n : Nat) : upwardGreatest n =
    if n = 8 then some 64 else if n = 9 then some 44 else if n = 10 then some 1 else none := by
  unfold upwardGreatest
  split <;> simp_all

theorem upwardGreatest_le (n greatest : Nat) (h : upwardGreatest n = some greatest) : greatest ≤ 64 := by
  rw [upwardGreatest_eq] at h
  split_ifs at h <;> cases h <;> omega

/-- The kind and the tag that the first byte of a frame carries. -/
theorem kindByte_answer (tag : BitVec 4) : ((8#8 <<< 4 ||| tag.zeroExtend 8) >>> 4 : Byte) = 8#8 ∧
    ((8#8 <<< 4 ||| tag.zeroExtend 8 : Byte).truncate 4 = tag) := by
  revert tag
  decide

theorem kindByte_sampleSet (tag : BitVec 4) : ((9#8 <<< 4 ||| tag.zeroExtend 8) >>> 4 : Byte) = 9#8 := by
  revert tag
  decide

theorem kindByte_alert (tag : BitVec 4) : ((10#8 <<< 4 ||| tag.zeroExtend 8) >>> 4 : Byte) = 10#8 := by
  revert tag
  decide

/-- What a frame that ended at its last byte is taken for, by its kind and its check word. -/
def upwardTaken (c : Chain) (k a : Byte) (payload : List Byte) (good : Bool) (start : Stamp) : Option Instr :=
  if (k >>> 4).toNat == 9 then some (if good then .sampleSet c a payload else .sampleSetCheckFailed c a)
  else if !good then none
  else if (k >>> 4).toNat == 8 then some (.answer c (k.truncate 4) a payload start)
  else some (.alert c a (payload.headD Config.missingAlertCode))

theorem judgeUpward_whole (c : Chain) (k a : Byte) (payload : List Byte) (check : BitVec 16) (greatest : Nat) (start : Stamp)
    (up : upwardGreatest (k >>> 4).toNat = some greatest) (le : payload.length ≤ greatest) :
    judgeUpward c (k :: a :: byteOfNat payload.length :: (payload ++ bytes16 check)) start =
      upwardTaken c k a payload (crc16 (k :: a :: byteOfNat payload.length :: payload) == check) start := by
  have small := upwardGreatest_le _ _ up
  have length : (byteOfNat payload.length).toNat = payload.length := by
    unfold byteOfNat
    rw [BitVec.toNat_ofNat]
    omega
  have same : ∀ x y : BitVec 16, (bytes16 x == bytes16 y) = (x == y) := fun x y => by
    rw [Bool.eq_iff_iff, beq_iff_eq, beq_iff_eq]
    exact ⟨bytes16_injective, congrArg bytes16⟩
  have two : (bytes16 check).take 2 = bytes16 check := rfl
  unfold judgeUpward
  dsimp only
  rw [up]
  dsimp only
  rw [length, List.take_left, List.drop_left, two, same, decide_eq_true le, Bool.true_and]
  rfl

/-- A frame whose length is too great for its kind ends at its length byte, with no right check word. -/
theorem judgeUpward_long (c : Chain) (k a l : Byte) (greatest : Nat) (start : Stamp)
    (up : upwardGreatest (k >>> 4).toNat = some greatest) (long : greatest < l.toNat) :
    judgeUpward c [k, a, l] start = upwardTaken c k a [] false start := by
  unfold judgeUpward
  dsimp only
  rw [up]
  dsimp only
  rw [decide_eq_false (by omega : ¬l.toNat ≤ greatest), Bool.false_and, List.take_nil]
  rfl

theorem judgeUpward_other (c : Chain) (k a l : Byte) (start : Stamp) (other : upwardGreatest (k >>> 4).toNat = none) :
    judgeUpward c [k, a, l] start = none := by
  unfold judgeUpward
  dsimp only
  rw [other]

theorem frameEnds_cut (k a l : Byte)
    (h : upwardGreatest (k >>> 4).toNat = none ∨
      ∃ greatest, upwardGreatest (k >>> 4).toNat = some greatest ∧ greatest < l.toNat) : frameEnds [k, a, l] = true := by
  unfold frameEnds
  dsimp only
  rcases h with h | ⟨greatest, h, long⟩
  · rw [h]
  · rw [h]
    simp [long]

theorem upwardTaken_failed (c : Chain) (k a : Byte) (payload : List Byte) (start : Stamp) :
    (upwardTaken c k a payload false start).toList = if k >>> 4 = 9#8 then [.sampleSetCheckFailed c a] else [] := by
  have kind : ((k >>> 4).toNat == 9) = true ↔ k >>> 4 = 9#8 := by
    rw [beq_iff_eq, ← BitVec.toNat_inj]
    rfl
  unfold upwardTaken
  by_cases nine : k >>> 4 = 9#8
  · rw [if_pos (kind.2 nine), if_pos nine]
    rfl
  · rw [if_neg fun h => nine (kind.1 h), if_neg nine]
    rfl

/-- What a frame with its right check word is taken for. -/
theorem upwardTaken_answer (c : Chain) (tag : BitVec 4) (a : Byte) (payload : List Byte) (start : Stamp) :
    upwardTaken c (8#8 <<< 4 ||| tag.zeroExtend 8) a payload true start = some (.answer c tag a payload start) := by
  obtain ⟨kind, low⟩ := kindByte_answer tag
  unfold upwardTaken
  rw [kind, low]
  rfl

theorem upwardTaken_sampleSet (c : Chain) (tag : BitVec 4) (a : Byte) (payload : List Byte) (start : Stamp) :
    upwardTaken c (9#8 <<< 4 ||| tag.zeroExtend 8) a payload true start = some (.sampleSet c a payload) := by
  unfold upwardTaken
  rw [kindByte_sampleSet]
  rfl

theorem upwardTaken_alert (c : Chain) (tag : BitVec 4) (a : Byte) (payload : List Byte) (start : Stamp) :
    upwardTaken c (10#8 <<< 4 ||| tag.zeroExtend 8) a payload true start =
      some (.alert c a (payload.headD Config.missingAlertCode)) := by
  unfold upwardTaken
  rw [kindByte_alert]
  rfl

theorem judgeUpward_chainFrame (c : Chain) (kind : Byte) (tag : BitVec 4) (a : Byte) (payload : List Byte) (greatest : Nat)
    (start : Stamp) (up : upwardGreatest ((kind <<< 4 ||| tag.zeroExtend 8 : Byte) >>> 4).toNat = some greatest)
    (le : payload.length ≤ greatest) : judgeUpward c (chainFrame kind tag a payload) start =
      upwardTaken c (kind <<< 4 ||| tag.zeroExtend 8) a payload true start := by
  have judged := judgeUpward_whole c (kind <<< 4 ||| tag.zeroExtend 8) a payload
    (crc16 ((kind <<< 4 ||| tag.zeroExtend 8) :: a :: byteOfNat payload.length :: payload)) greatest start up le
  rwa [beq_self_eq_true] at judged

section Bytes

variable (s : State) (c : Chain) (tenth : Fin 10) (noise : List Byte)

/-- What the bytes after the delimiter bring, with the noise before it. -/
theorem State.receive_checked (h : s.held = false) (g : (s.port c).reception = .hunting) (n : 0xA5#8 ∉ noise) (k a : Byte)
    (payload : List Byte) (check : BitVec 16) (greatest : Nat) (up : upwardGreatest (k >>> 4).toNat = some greatest)
    (le : payload.length ≤ greatest) :
    (noise ++ 0xA5#8 :: k :: a :: byteOfNat payload.length :: (payload ++ bytes16 check)).foldl
      (fun s b => s.receiveByte c tenth b) s = { s with pending := s.pending ++
        (upwardTaken c k a payload (crc16 (k :: a :: byteOfNat payload.length :: payload) == check)
          (s.byteStart tenth)).toList } := by
  have small := upwardGreatest_le _ _ up
  rw [s.receive_whole c tenth h g noise payload (bytes16 check) k a greatest n up le (by omega) rfl,
    judgeUpward_whole c k a payload check greatest _ up le]

/-- A frame of an upward kind with its right check word. -/
theorem State.receive_chainFrame (h : s.held = false) (g : (s.port c).reception = .hunting) (n : 0xA5#8 ∉ noise) (kind : Byte)
    (tag : BitVec 4) (a : Byte) (payload : List Byte) (greatest : Nat)
    (up : upwardGreatest ((kind <<< 4 ||| tag.zeroExtend 8 : Byte) >>> 4).toNat = some greatest)
    (le : payload.length ≤ greatest) :
    (noise ++ 0xA5#8 :: chainFrame kind tag a payload).foldl (fun s b => s.receiveByte c tenth b) s =
      { s with pending := s.pending ++
        (upwardTaken c (kind <<< 4 ||| tag.zeroExtend 8) a payload true (s.byteStart tenth)).toList } := by
  have received := s.receive_checked c tenth noise h g n (kind <<< 4 ||| tag.zeroExtend 8) a payload
    (crc16 ((kind <<< 4 ||| tag.zeroExtend 8) :: a :: byteOfNat payload.length :: payload)) greatest up le
  rwa [beq_self_eq_true] at received

/-- A frame that ends at its length byte because its length is too great. -/
theorem State.receive_long (h : s.held = false) (g : (s.port c).reception = .hunting) (n : 0xA5#8 ∉ noise) (k a l : Byte)
    (greatest : Nat) (up : upwardGreatest (k >>> 4).toNat = some greatest) (long : greatest < l.toNat) :
    (noise ++ [0xA5#8, k, a, l]).foldl (fun s b => s.receiveByte c tenth b) s = { s with
      pending := s.pending ++ if k >>> 4 = 9#8 then [.sampleSetCheckFailed c a] else [] } := by
  rw [s.receive_cut c tenth h g noise k a l n (frameEnds_cut k a l (.inr ⟨greatest, up, long⟩)),
    judgeUpward_long c k a l greatest _ up long, upwardTaken_failed]

/-- A frame of a kind that is not upward. -/
theorem State.receive_other (h : s.held = false) (g : (s.port c).reception = .hunting) (n : 0xA5#8 ∉ noise) (k a l : Byte)
    (other : upwardGreatest (k >>> 4).toNat = none) :
    (noise ++ [0xA5#8, k, a, l]).foldl (fun s b => s.receiveByte c tenth b) s = s := by
  rw [s.receive_cut c tenth h g noise k a l n (frameEnds_cut k a l (.inl other)), judgeUpward_other c k a l _ other]
  simp

/-- R3, R183: the last byte of an ANSWER, with the start instant that its delimiter left. -/
theorem State.receiveByte_answer (h : s.held = false) (b : Byte) (start : Stamp) (frame : List Byte) (tag : BitVec 4)
    (a : Byte) (payload : List Byte) (le : payload.length ≤ 64) (last : frame ++ [b] = chainFrame 8#8 tag a payload)
    (g : (s.port c).reception = .frame start frame) : s.receiveByte c tenth b =
      { s.hearing c .hunting with pending := s.pending ++ [.answer c tag a payload start] } := by
  have up : upwardGreatest ((8#8 <<< 4 ||| tag.zeroExtend 8 : Byte) >>> 4).toNat = some 64 := by
    rw [(kindByte_answer tag).1]
    rfl
  have ends : frameEnds (frame ++ [b]) = true := by
    have length : (byteOfNat payload.length).toNat = payload.length := by
      unfold byteOfNat
      rw [BitVec.toNat_ofNat]
      omega
    rw [last]
    show frameEnds ((8#8 <<< 4 ||| tag.zeroExtend 8) :: a :: byteOfNat payload.length :: (payload ++ bytes16 _)) = true
    unfold frameEnds
    dsimp only
    rw [up]
    simp [length, bytes16]
  have received := s.receiveByte_end c tenth h start frame b ends
  rw [s.hearing_self c _ g, last, judgeUpward_chainFrame c 8#8 tag a payload 64 start up le, upwardTaken_answer] at received
  exact received

end Bytes

/-- The frames that join the queue of commands, and those that are discarded. -/
theorem receivedUpwardFrames (s : State) (c : Chain) (tenth : Fin 10) (noise payload : List Byte) (tag : BitVec 4)
    (address : Byte) (receive : List Byte → State) (joining : List Instr → State) (h : s.held = false)
    (g : (s.port c).reception = .hunting) (n : 0xA5#8 ∉ noise) (hj : joining = fun l => { s with pending := s.pending ++ l })
    (hr : receive = fun bytes => (noise ++ 0xA5#8 :: bytes).foldl (fun s b => s.receiveByte c tenth b) s) :
    (payload.length ≤ 64 → receive (chainFrame 8#8 tag address payload) =
      joining [.answer c tag address payload ⟨s.time - 5#32, tenth⟩]) ∧
    (payload.length ≤ 44 → receive (chainFrame 9#8 tag address payload) = joining [.sampleSet c address payload]) ∧
    (payload.length ≤ 1 → receive (chainFrame 10#8 tag address payload) =
      joining [.alert c address (payload.headD Config.missingAlertCode)]) := by
  subst hj hr
  refine ⟨fun le => ?_, fun le => ?_, fun le => ?_⟩
  · have up : upwardGreatest ((8#8 <<< 4 ||| tag.zeroExtend 8 : Byte) >>> 4).toNat = some 64 := by
      rw [(kindByte_answer tag).1]
      rfl
    dsimp only
    rw [s.receive_chainFrame c tenth noise h g n 8#8 tag address payload 64 up le, upwardTaken_answer]
    rfl
  · have up : upwardGreatest ((9#8 <<< 4 ||| tag.zeroExtend 8 : Byte) >>> 4).toNat = some 44 := by
      rw [kindByte_sampleSet]
      rfl
    dsimp only
    rw [s.receive_chainFrame c tenth noise h g n 9#8 tag address payload 44 up le, upwardTaken_sampleSet]
    rfl
  · have up : upwardGreatest ((10#8 <<< 4 ||| tag.zeroExtend 8 : Byte) >>> 4).toNat = some 1 := by
      rw [kindByte_alert]
      rfl
    dsimp only
    rw [s.receive_chainFrame c tenth noise h g n 10#8 tag address payload 1 up le, upwardTaken_alert]
    rfl

/-- Entry 54: the ten bits of a byte, and bits that are no byte. -/
theorem State.receiveLine_byte (s : State) (c : Chain) (tenth : Fin 10) (b : Byte) :
    s.receiveLine c tenth (lineBits b) = s.receiveByte c tenth b := by
  unfold State.receiveLine
  rw [byteOfLine_lineBits]

theorem State.receiveLine_none (s : State) (c : Chain) (tenth : Fin 10) (bits : List Bool)
    (h : bits.length ≠ 10 ∨ bits.head? = some true ∨ bits.getLast? = some false) : s.receiveLine c tenth bits = s := by
  unfold State.receiveLine
  rw [byteOfLine_none bits h]

/-- Settles O8: the requests read and written, the upward frames byte by byte, and the bits of a byte. -/
theorem receivedFramesAreRead : Obligations.ReceivedFramesAreRead := by
  refine ⟨⟨decodeInbound_encodeInbound, ?_⟩, ?_, ?_, fun s c tenth b start frame h => ⟨fun g => ?_, fun g more => ?_, ?_⟩, ?_,
    fun s c tenth b bits => ⟨rfl, s.receiveLine_byte c tenth b, s.receiveLine_none c tenth bits, rfl⟩⟩
  · intro s c tenth noise payload tag address receive joining h g n hj hr
    have frames := fun payload => receivedUpwardFrames s c tenth noise payload tag address receive joining h g n hj hr
    obtain ⟨answer, sampleSet, -⟩ := frames payload
    refine ⟨s.receive_noise c tenth h g noise n, answer, sampleSet, fun code => (frames [code]).2.2 (Nat.le_refl 1),
      ⟨_, (frames []).2.2 (Nat.zero_le 1)⟩, fun k l greatest check up => ⟨fun le wrong => ?_, fun long => ?_⟩,
      fun k l other => ?_, upwardGreatest_eq⟩ <;> subst hj hr
    · have failed : (crc16 (k :: address :: byteOfNat payload.length :: payload) == check) = false :=
        beq_eq_false_iff_ne.2 wrong.symm
      dsimp only
      rw [s.receive_checked c tenth noise h g n k address payload check greatest up le, failed, upwardTaken_failed]
    · exact s.receive_long c tenth noise h g n k address l greatest up long
    · exact s.receive_other c tenth noise h g n k address l other
  · rintro frame t a b c data n w rfl
    exact ⟨rfl, rfl, rfl, rfl, rfl, rfl, rfl, rfl, rfl, rfl, rfl, rfl, rfl, rfl, rfl, rfl, rfl, rfl, rfl, rfl, rfl, rfl, rfl, rfl⟩
  · rintro crc bit x y bytes rfl rfl
    exact ⟨rfl, by decide +kernel, rfl, rfl⟩
  · exact s.receiveByte_delimiter c tenth h g
  · have heard := s.receiveByte_more c tenth h start frame b more
    rwa [s.hearing_self c _ g] at heard
  · exact fun tag address payload le last g => s.receiveByte_answer c tenth h b start frame tag address payload le last g
  · rintro kind tag address payload body rfl
    rfl

end Sys2Proof.Machine
end

section
/-! SUPPORT. PASS, CHAIN_START and SURVEY, the survey that begins, and an ALERT. -/

namespace Sys2Proof.Machine

/-- R176: what a request does, once the link has taken its frame. -/
theorem exec_request_eq (i : Instr) (s : State) {t : State} (q : i.isRequest = true) (h : s.linkReady)
    (e : s.taken.handle i = t) : exec i s = .next t := (exec_request i s q h).trans (congrArg Host.Outcome.next e)

/-! ### PASS (R40) -/

/-- R185: the codes above 1 name no chain. -/
theorem chainOf_none : ∀ code : Byte, 1 < code.toNat → chainOf code = none := by decide

theorem State.requestPass_refused (s : State) (chain position order tag : Byte) (data : List Byte) (status : ReplyStatus)
    (h : s.passRefusal chain position order data = some status) :
    s.requestPass chain position order tag data = s.reply tag status .none := by
  unfold State.requestPass
  rw [h]

theorem State.requestPass_joins (s : State) (chain position order tag : Byte) (data : List Byte) (c : Chain)
    (hc : chainOf chain = some c) (h : s.passRefusal chain position order data = none) :
    s.requestPass chain position order tag data = s.setPort c { s.port c with
      forward := (s.port c).forward ++ [⟨position.toNat, order, data, .pass tag⟩] } := by
  unfold State.requestPass
  rw [h, hc]
  rfl

/-- R40: a field out of its range, or a reserved order code, is the first thing that a PASS is refused for. -/
theorem State.passRefusal_range (s : State) (chain position order : Byte) (data : List Byte)
    (h : 1 < chain.toNat ∨ 16 < position.toNat ∨ 64 < data.length ∨ 0xF0 ≤ order.toNat) :
    s.passRefusal chain position order data = some .badArgument := by
  unfold State.passRefusal
  cases hc : chainOf chain with
  | none => rfl
  | some c =>
    have named : ¬1 < chain.toNat := fun g => by rw [chainOf_none chain g] at hc; cases hc
    dsimp only
    by_cases fields : 16 < position.toNat ∨ 64 < data.length
    · exact if_pos fields
    · rw [if_neg fields]
      exact if_pos (by omega)

/-- R40: past the ranges the Node Table is asked, and then whether the chain runs. -/
theorem State.passRefusal_inRange (s : State) (chain position order : Byte) (data : List Byte) (c : Chain)
    (hc : chainOf chain = some c) (place : position.toNat ≤ 16) (short : data.length ≤ 64) (code : order.toNat < 0xF0) :
    s.passRefusal chain position order data =
      if s.working ≠ none ∧ position.toNat ≠ 0 ∧ s.node c position.toNat = none then some .badArgument
      else if (s.port c).run = .running then none else some .chainStopped := by
  unfold State.passRefusal
  rw [hc]
  dsimp only
  rw [if_neg (by omega), if_neg (by omega)]
  simp only [Option.isSome_iff_ne_none, Option.isNone_iff_eq_none, s.runs_iff, ite_not]

/-- Settles O16: the tests of a PASS in their order, and the forward queue. -/
theorem passAnswers : Obligations.PassAnswers := by
  refine ⟨fun s chain position order tag data h => ⟨fun bad => ?_, fun c hc place short code => ?_⟩,
    fun s p => ⟨rfl, rfl, rfl, rfl⟩⟩
  all_goals
    have answered : ∀ status, s.taken.passRefusal chain position order data = some status →
        exec (.pass chain position order tag data) s = .next (s.answered tag status .none).finish := fun status refused =>
      exec_request_eq _ s rfl h (congrArg State.finish
        ((s.taken.requestPass_refused chain position order tag data status refused).trans (s.taken_reply h tag status .none)))
  · exact answered _ (s.taken.passRefusal_range chain position order data bad)
  · have refusal := s.taken.passRefusal_inRange chain position order data c hc place short code
    refine ⟨fun unlisted => answered _ (refusal.trans (if_pos unlisted)), fun listed => ⟨fun stopped => ?_, fun runs => ?_⟩⟩
    all_goals
      have listed' : ¬(s.taken.working ≠ none ∧ position.toNat ≠ 0 ∧ s.taken.node c position.toNat = none) :=
        fun ⟨a, b, d⟩ => listed.elim a (·.elim b (· d))
      rw [if_neg listed'] at refusal
    · exact answered _ (refusal.trans (if_neg stopped))
    · exact exec_request_eq _ s rfl h (congrArg State.finish
        (s.taken.requestPass_joins chain position order tag data c hc (refusal.trans (if_pos runs))))

/-! ### A survey that begins (R48, R50) -/

/-- R48: over a plan that has a position a survey puts its first ECHO on the internal queue. -/
theorem State.startSurvey_cons (w : State) (c : Chain) (e : NodeEntry) (rest : List NodeEntry)
    (table : (w.port c).table = e :: rest) : w.startSurvey c = w.setPort c { w.port c with
      aligned := [], notAligned := [], survey := .echoing e.position
      internal := (w.port c).internal ++ [Order.echo e.position] } := by
  unfold State.startSurvey
  simp only [State.mapPort_eq_setPort, State.joinInternal_eq_setPort, State.setPort_port, State.setPort_setPort, table]

/-- Entry 40: over an empty Node Table it is COMPLETE at once. -/
theorem State.startSurvey_nil (w : State) (c : Chain) (idle : (w.port c).survey = .idle) (table : (w.port c).table = []) :
    w.startSurvey c = (w.setPort c { w.port c with
      aligned := [], notAligned := [], lastSurvey := some ⟨[], [], .complete⟩ }).notify
        (.surveyDone c ⟨[], [], .complete⟩) := by
  unfold State.startSurvey State.recordSurvey
  simp only [State.mapPort_eq_setPort, State.setPort_port, State.setPort_setPort, table, ← idle]

/-- Entry 40: a pending survey over an empty Node Table. -/
theorem State.pendingSurvey_completes (w : State) (c : Chain) (pending : (w.port c).surveyPending = true)
    (idle : (w.port c).survey = .idle) (op : w.sleep.op = .run) (runs : (w.port c).run = .running)
    (table : (w.port c).table = []) : w.pendingSurvey c = (w.setPort c { w.port c with
      surveyPending := false, aligned := [], notAligned := [], lastSurvey := some ⟨[], [], .complete⟩ }).notify
        (.surveyDone c ⟨[], [], .complete⟩) := by
  unfold State.pendingSurvey
  rw [if_pos (by simp [State.surveyAllowed, State.runs, pending, idle, op, runs])]
  rw [State.startSurvey_nil _ c (by simpa using idle) (by simpa using table)]
  simp only [State.mapPort_eq_setPort, State.setPort_port, State.setPort_setPort]

/-! ### CHAIN_START (R46) -/

theorem State.requestStart_none (w : State) (tag chain : Byte) (hc : chainOf chain = none) :
    w.requestStart tag chain = w.reply tag .badArgument .none := by
  unfold State.requestStart
  rw [hc]

/-- R46: by the run state of the chain. -/
theorem State.requestStart_chain (w : State) (tag chain : Byte) (c : Chain) (hc : chainOf chain = some c) :
    ((w.port c).run = .running → w.requestStart tag chain = w.reply tag .done .none) ∧
    ((w.port c).run = .draining → w.requestStart tag chain = w.reply tag .busy .none) ∧
    ((w.port c).run = .stopped → w.requestStart tag chain =
      ((w.setPort c { w.port c with run := .running }).reply tag .done .none).pendingSurvey c) := by
  unfold State.requestStart
  rw [hc]
  dsimp only
  refine ⟨fun run => by rw [run], fun run => by rw [run], fun run => ?_⟩
  rw [run]
  rfl

/-- Settles O18: the answer by the run state of the chain, and the survey that was pending. -/
theorem chainStartAnswers : Obligations.ChainStartAnswers := by
  refine ⟨fun s tag chain h => ?_, ?_⟩
  · have answered : ∀ status, s.taken.requestStart tag chain = s.taken.reply tag status .none →
        exec (.chainStart tag chain) s = .next (s.answered tag status .none).finish := fun status e =>
      exec_request_eq _ s rfl h (congrArg State.finish (e.trans (s.taken_reply h tag status .none)))
    refine ⟨fun hc => answered _ (s.taken.requestStart_none tag chain hc), fun c hc => ?_⟩
    obtain ⟨running, draining, stopped⟩ := s.taken.requestStart_chain tag chain c hc
    refine ⟨fun run => answered _ (running run), fun run => answered _ (draining run), fun run => ?_⟩
    refine exec_request_eq _ s rfl h (congrArg State.finish ((stopped run).trans (congrArg (State.pendingSurvey · c) ?_)))
    exact State.taken_reply ({ s with ports := s.ports.set c { s.port c with run := .running } }) h tag .done .none
  · rintro v c p done rfl rfl
    exact ⟨v.pendingSurvey_none c _ rfl, fun pending idle op runs =>
      ⟨fun e rest => v.pendingSurvey_begins c e rest pending idle op runs, v.pendingSurvey_completes c pending idle op runs⟩⟩

/-! ### SURVEY (R48) -/

theorem State.requestSurveyNow_none (w : State) (tag chain : Byte) (hc : chainOf chain = none) :
    w.requestSurveyNow tag chain = w.reply tag .badArgument .none := by
  unfold State.requestSurveyNow
  rw [hc]

/-- R48: the first case that applies. -/
theorem State.requestSurveyNow_chain (w : State) (tag chain : Byte) (c : Chain) (hc : chainOf chain = some c) :
    w.requestSurveyNow tag chain =
      if w.sleep.op = .unconfigured then w.reply tag .refusedState .none
      else if (w.port c).run ≠ .running then w.reply tag .chainStopped .none
      else if (w.port c).survey ≠ .idle then w.reply tag .busy .none
      else (w.reply tag .accepted .none).beginSurvey c := by
  unfold State.requestSurveyNow
  rw [hc]
  simp only [w.runs_iff, ne_eq]

/-- R50: a survey that has its first ECHO to wait for lets no pending one begin. -/
theorem State.beginSurvey_cons (w : State) (c : Chain) (e : NodeEntry) (rest : List NodeEntry)
    (table : (w.port c).table = e :: rest) : w.beginSurvey c = w.setPort c { w.port c with
      aligned := [], notAligned := [], survey := .echoing e.position
      internal := (w.port c).internal ++ [Order.echo e.position] } := by
  unfold State.beginSurvey
  rw [w.startSurvey_cons c e rest table]
  exact State.pendingSurvey_none _ c _ (w.setPort_port c _).symm (.inr (.inl nofun))

/-- Entry 40: over an empty Node Table the pending survey follows at once, where it may begin. -/
theorem State.beginSurvey_nil (w : State) (c : Chain) (runs : (w.port c).run = .running) (idle : (w.port c).survey = .idle)
    (table : (w.port c).table = []) :
    ((w.port c).surveyPending = false ∨ w.sleep.op ≠ .run → w.beginSurvey c = (w.setPort c { w.port c with
      aligned := [], notAligned := [], lastSurvey := some ⟨[], [], .complete⟩ }).notify
        (.surveyDone c ⟨[], [], .complete⟩)) ∧
    ((w.port c).surveyPending = true → w.sleep.op = .run → w.beginSurvey c = ((w.setPort c { w.port c with
      aligned := [], notAligned := [], surveyPending := false, lastSurvey := some ⟨[], [], .complete⟩ }).notify
        (.surveyDone c ⟨[], [], .complete⟩)).notify (.surveyDone c ⟨[], [], .complete⟩)) := by
  have port : ∀ p n, ((w.setPort c p).notify n).port c = p := fun p n => w.setPort_port c p
  unfold State.beginSurvey
  rw [w.startSurvey_nil c idle table]
  refine ⟨fun stays => ?_, fun pending op => ?_⟩
  · exact State.pendingSurvey_none _ c _ (port _ _).symm (stays.imp id fun h => .inr (.inl h))
  · refine (State.pendingSurvey_completes _ c ?_ ?_ ?_ ?_ ?_).trans ?_
    · rw [port]; exact pending
    · rw [port]; exact idle
    · exact op
    · rw [port]; exact runs
    · rw [port]; exact table
    · rw [port]; cases c <;> rfl

/-- Settles O19: the cases of a SURVEY in their order, and the survey that begins. -/
theorem surveyAnswers : Obligations.SurveyAnswers := by
  intro s tag chain h
  have exec_eq : ∀ {t}, s.taken.requestSurveyNow tag chain = t → exec (.survey tag chain) s = .next t.finish :=
    fun e => exec_request_eq _ s rfl h (congrArg State.finish e)
  have reply := fun status => s.taken_reply h tag status .none
  refine ⟨fun hc => exec_eq ((s.taken.requestSurveyNow_none tag chain hc).trans (reply _)), fun c hc => ?_⟩
  have asked := s.taken.requestSurveyNow_chain tag chain c hc
  refine ⟨fun op => exec_eq ((asked.trans (if_pos op)).trans (reply _)), fun op => ?_⟩
  replace asked := asked.trans (if_neg op)
  refine ⟨fun run => exec_eq ((asked.trans (if_pos run)).trans (reply _)), fun run survey => ?_, fun e rest run idle table => ?_,
    fun run idle table => ?_⟩
  all_goals replace asked := asked.trans (if_neg (not_not_intro run))
  · exact exec_eq ((asked.trans (if_pos survey)).trans (reply _))
  all_goals
    replace asked := asked.trans (if_neg (not_not_intro idle))
    rw [reply] at asked
  · exact exec_eq (asked.trans ((s.answered tag .accepted .none).beginSurvey_cons c e rest table))
  · obtain ⟨once, twice⟩ := (s.answered tag .accepted .none).beginSurvey_nil c run idle table
    exact ⟨fun stays => exec_eq (asked.trans (once stays)), fun pending op => exec_eq (asked.trans (twice pending op))⟩

/-! ### ALERT (R42, R146) -/

theorem State.chainAlertEnabled_image (s : State) (i : Image) (h : s.image = some i) :
    s.chainAlertEnabled = i.patrolTable.chainAlert := by
  unfold State.chainAlertEnabled
  rw [s.patrol_of_image h]

theorem State.chainAlertEnabled_none (s : State) (h : s.image = none) : s.chainAlertEnabled = false := by
  unfold State.chainAlertEnabled State.patrol
  rw [h]
  rfl

/-- R42: where the notice of an ALERT is offered. -/
theorem State.alertsNoticed_iff (s : State) : s.alertsNoticed = true ↔
    s.sleep.op = .run ∨ s.sleep.op = .unconfigured ∨ (s.sleep.op = .waking ∧ s.link.state ≠ .shut) := by
  unfold State.alertsNoticed
  cases s.sleep.op <;> simp

/-- R42: an ALERT that is noticed. -/
theorem State.takeAlert_noticed (s : State) (c : Chain) (address code : Byte) (h : s.alertsNoticed = true) :
    (code = 2#8 → s.takeAlert c address code = s.notify (.alert c address true)) ∧
    (code ≠ 2#8 → s.takeAlert c address code = (s.notify (.alert c address false)).setLocalFault c address.toNat) := by
  unfold State.takeAlert
  dsimp only
  rw [if_pos h]
  refine ⟨fun request => ?_, fun fault => ?_⟩
  · rw [beq_iff_eq.2 request]
    rfl
  · rw [beq_eq_false_iff_ne.2 fault]
    rfl

/-- R42, R146: an ALERT that is not noticed. -/
theorem State.takeAlert_unnoticed (s : State) (c : Chain) (address code : Byte) (h : s.alertsNoticed = false) :
    (code = 2#8 → s.takeAlert c address code =
      if s.link.state = .shut ∧ s.chainAlertEnabled = true then s.latch .chainAlert else s) ∧
    (code ≠ 2#8 → s.takeAlert c address code =
      if s.sleep.op = .asleep ∨ s.resting c = true then s else s.setLocalFault c address.toNat) := by
  unfold State.takeAlert
  dsimp only
  rw [if_neg (Bool.eq_false_iff.1 h)]
  refine ⟨fun request => ?_, fun fault => ?_⟩
  · rw [if_pos (beq_iff_eq.2 request)]
    simp only [Bool.and_eq_true, beq_iff_eq]
  · exact if_neg fun e => fault (beq_iff_eq.1 e)

/-- Settles O29: by whether the notice is offered, and by the code. -/
theorem alertsAreTaken : Obligations.AlertsAreTaken := by
  refine ⟨fun s c address code held => ?_,
    fun s c => ⟨s.chainAlertEnabled_none, s.chainAlertEnabled_image, rfl⟩⟩
  have exec_eq : ∀ {t}, s.takeAlert c address code = t → exec (.alert c address code) s = .next t :=
    fun e => (exec_alert s c address code held).trans (congrArg Host.Outcome.next e)
  refine ⟨fun noticed => ?_, fun unnoticed => ?_⟩
  · obtain ⟨request, fault⟩ := s.takeAlert_noticed c address code (s.alertsNoticed_iff.2 noticed)
    exact ⟨fun e => exec_eq (request e), fun e => exec_eq (fault e)⟩
  · have off : s.alertsNoticed = false := by
      rw [Bool.eq_false_iff, ne_eq, s.alertsNoticed_iff]
      rcases unnoticed with op | op | op | ⟨op, shut⟩ <;> simp [*]
    obtain ⟨request, fault⟩ := s.takeAlert_unnoticed c address code off
    refine ⟨fun e shut on => exec_eq ((request e).trans (if_pos ⟨shut, on⟩)), fun e no => ?_,
      fun e rests => exec_eq ((fault e).trans (if_pos rests)), fun e awake wakes => ?_⟩
    · exact exec_eq ((request e).trans (if_neg fun ⟨shut, on⟩ => no.elim (· shut) fun off => by simp [off] at on))
    · exact exec_eq ((fault e).trans (if_neg fun rests => rests.elim awake fun on => by simp [wakes] at on))

end Sys2Proof.Machine
end

section
/-! SUPPORT. CHAIN_STOP: the requests, the steps of a DRAIN and of an ABORT, the queues they empty, and the waiting claim. -/

namespace Sys2Proof.Machine

/-! ### The queues of a chain that stops (R31, R44, R45) -/

/-- The answer of a PASS that its chain's stop removes. -/
def HostLink.answerStopped (l : HostLink) (o : Order) : HostLink :=
  match o.owner with
  | .pass p => l.offer (.reply p .chainStopped .none) false
  | _ => l

/-- Changes of the link alone, one for each member of a list. -/
theorem foldl_link {α : Type} (g : State → α → State) (f : HostLink → α → HostLink)
    (h : ∀ s a, g s a = { s with link := f s.link a }) (l : List α) (s : State) :
    l.foldl g s = { s with link := l.foldl f s.link } := by
  induction l generalizing s with
  | nil => rfl
  | cons a l ih => rw [List.foldl_cons, ih, h, List.foldl_cons]

/-- R44, R45: the forward queue is emptied, and each PASS of it answered, head to tail. -/
theorem State.emptyForward_eq (v : State) (c : Chain) : v.emptyForward c =
    { v.setPort c { v.port c with forward := [] } with
      link := (v.port c).forward.foldl HostLink.answerStopped v.link } :=
  foldl_link _ HostLink.answerStopped (fun s o => by rcases o with ⟨_, _, _, owner⟩; cases owner <;> rfl) _ _

theorem State.emptyForward_nil (v : State) (c : Chain) (h : (v.port c).forward = []) : v.emptyForward c = v := by
  have same : ({ v.port c with forward := [] } : ChainPort) = v.port c := by rw [← h]
  rw [v.emptyForward_eq c, same, v.setPort_port_self c, h]
  rfl

/-- The order is a REST or a ROUSE, whose end the Sleep Controller may await. -/
abbrev Order.reported (o : Order) : Prop := o.owner = .rest ∨ o.owner = .rouse

/-- R44, R45: the internal queue is emptied at once, and each REST or ROUSE of it reported as ended, head to tail. -/
theorem State.emptyInternal_eq (v : State) (c : Chain) : v.emptyInternal c =
    ((v.port c).internal.filter fun o => Decidable.decide o.reported).foldl
      (fun t o => t.broadcastEnded c (Decidable.decide (o.owner = .rest)))
      (v.setPort c { v.port c with internal := [] }) := by
  rw [List.foldl_filter]
  refine congrArg (fun g => List.foldl g _ _) (funext₂ fun t o => ?_)
  rcases o with ⟨_, _, _, owner⟩
  cases owner <;> rfl

theorem State.emptyInternal_unreported (v : State) (c : Chain) (h : ∀ o ∈ (v.port c).internal, ¬o.reported) :
    v.emptyInternal c = v.setPort c { v.port c with internal := [] } := by
  have none_ : ((v.port c).internal.filter fun o => Decidable.decide o.reported) = [] := by
    rw [List.filter_eq_nil_iff]
    exact fun o ho => by simpa using h o ho
  rw [v.emptyInternal_eq c, none_]
  rfl

theorem State.emptyInternal_nil (v : State) (c : Chain) (h : (v.port c).internal = []) : v.emptyInternal c = v := by
  rw [v.emptyInternal_unreported c (by simp [h]), ← h]
  exact v.setPort_port_self c

theorem State.emptyInternal_one (v : State) (c : Chain) (o : Order) (h : (v.port c).internal = [o]) (r : o.reported) :
    v.emptyInternal c =
      (v.setPort c { v.port c with internal := [] }).broadcastEnded c (Decidable.decide (o.owner = .rest)) := by
  rw [v.emptyInternal_eq c, h, List.filter_singleton, decide_eq_true r]
  rfl

/-! ### The survey of a chain that stops, and the stop itself (R44, R50) -/

theorem State.abortSurvey_idle (v : State) (c : Chain) (h : (v.port c).survey = .idle) : v.abortSurvey c = v := if_pos h

/-- R50: on a chain that does not run no pending survey follows. -/
theorem State.abortSurvey_flying (v : State) (c : Chain) (h : (v.port c).survey ≠ .idle) (run : (v.port c).run ≠ .running) :
    v.abortSurvey c = v.recordSurvey c .aborted :=
  (if_neg h).trans (State.pendingSurvey_none (v.recordSurvey c .aborted) c _ rfl
    (.inr (.inr (.inr (by cases c <;> exact run)))))

theorem State.drained_stays (v : State) (c : Chain) (h : (v.port c).run ≠ .draining ∨ (v.port c).transaction ≠ none) :
    v.drained c = v := by
  rw [v.drained_eq c]
  exact if_neg fun ⟨run, free⟩ => h.elim (· run) (· free)

theorem State.drained_stops (v : State) (c : Chain) (run : (v.port c).run = .draining)
    (free : (v.port c).transaction = none) : v.drained c =
      ((v.setPort c { v.port c with run := .stopped }).abortSurvey c).notify (.chainStopped c .drain) := by
  rw [v.drained_eq c]
  exact if_pos ⟨run, free⟩

/-! ### What is cut short (R45, step 1) -/

theorem State.freeChain_setPort (s : State) (c : Chain) (p : ChainPort) :
    (s.setPort c p).freeChain c = s.setPort c { p with transaction := none } := by
  cases c <;> rfl

theorem State.cutShort_free (u : State) (c : Chain) (h : (u.port c).transaction = none) : u.cutShort c = u := by
  unfold State.cutShort
  rw [h]

theorem State.cutShort_trigger (u : State) (c : Chain) (r : RoundRecord) (h : (u.port c).transaction = some .trigger)
    (collecting : u.collectingRound c = some r) :
    u.cutShort c = (u.endPart c r.number .aborted).closeIfSettled r.number := by
  unfold State.cutShort
  rw [h]
  dsimp only
  rw [collecting]
  rfl

theorem State.cutShort_order (u : State) (c : Chain) (o : Order) (t : BitVec 4) (e due : Instant)
    (h : (u.port c).transaction = some (.order o t e due)) :
    (∀ p, o.owner = .pass p → u.cutShort c = (u.freeChain c).reply p .chainStopped .none) ∧
    ((∀ p, o.owner ≠ .pass p) → u.cutShort c = u.freeChain c) := by
  unfold State.cutShort
  rw [h]
  dsimp only
  refine ⟨fun p owner => by rw [owner], fun other => ?_⟩
  split
  · rename_i p owner
    exact absurd owner (other p)
  · rfl

theorem State.cutShort_broadcast (u : State) (c : Chain) (o : Order) (settle : Instant)
    (h : (u.port c).transaction = some (.broadcast o settle)) :
    (∀ p, o.owner = .pass p → u.cutShort c = (u.freeChain c).reply p .chainStopped .none) ∧
    (o.owner = .rest → u.cutShort c = (u.freeChain c).broadcastEnded c true) ∧
    (o.owner = .rouse → u.cutShort c = (u.freeChain c).broadcastEnded c false) := by
  unfold State.cutShort
  rw [h]
  dsimp only
  exact ⟨fun p owner => by rw [owner], fun owner => by rw [owner], fun owner => by rw [owner]⟩

/-! ### The requests (R43 to R45) -/

theorem State.requestStop_none (w : State) (tag chain : Byte) (hc : chainOf chain = none) :
    w.requestDrain tag chain = w.reply tag .badArgument .none ∧
    w.requestAbort tag chain = w.reply tag .badArgument .none := by
  unfold State.requestDrain State.requestAbort
  rw [hc]
  exact ⟨rfl, rfl⟩

/-- R44: a DRAIN, by the run state of the chain. -/
theorem State.requestDrain_chain (w : State) (tag chain : Byte) (c : Chain) (hc : chainOf chain = some c) :
    w.requestDrain tag chain =
      if (w.port c).run = .running then w.drain tag c else w.reply tag .done .none := by
  unfold State.requestDrain
  rw [hc]
  dsimp only
  cases (w.port c).run <;> rfl

/-- R45: an ABORT, by the run state of the chain. -/
theorem State.requestAbort_chain (w : State) (tag chain : Byte) (c : Chain) (hc : chainOf chain = some c) :
    w.requestAbort tag chain =
      if (w.port c).run = .stopped then w.reply tag .done .none else w.abort tag c := by
  unfold State.requestAbort
  rw [hc]
  dsimp only
  cases (w.port c).run <;> rfl

/-- The chain in a run state. -/
abbrev State.withRun (s : State) (c : Chain) (x : ChainRun) : State :=
  { s with ports := s.ports.set c { s.port c with run := x } }

/-- R44: the steps of a DRAIN of a RUNNING chain. -/
theorem State.taken_drain (s : State) (h : s.linkReady) (tag : Byte) (c : Chain) : s.taken.drain tag c =
    ((((((s.withRun c .draining).answered tag (if (s.port c).transaction.isNone then .done else .accepted)
      .none).emptyForward c).emptyInternal c).withdrawClaim c .stopped).drained c) :=
  congrArg (fun t : State => (((t.emptyForward c).emptyInternal c).withdrawClaim c .stopped).drained c)
    ((s.withRun c .draining).taken_reply h tag _ .none)

theorem State.withdrawClaim_unclaimed (v : State) (c : Chain) (x : PartState) (h : v.claimNumber c = none) :
    v.withdrawClaim c x = v := by
  unfold State.withdrawClaim
  rw [h]

/-- Nothing is queued on the chain and nothing in flight, no claim waits for it and no survey runs on it. -/
structure State.Quiet (s : State) (c : Chain) : Prop where
  free : (s.port c).transaction = none
  internal : (s.port c).internal = []
  forward : (s.port c).forward = []
  claim : s.claimNumber c = none
  survey : (s.port c).survey = .idle

/-- On a chain that is quiet the queues, the claim and the survey have nothing to end. -/
theorem State.Quiet.nothing {t : State} {c : Chain} (q : t.Quiet c) :
    ((t.emptyForward c).emptyInternal c).withdrawClaim c .stopped = t ∧
    (((t.withdrawClaim c .stopped).emptyForward c).emptyInternal c).abortSurvey c = t := by
  rw [t.withdrawClaim_unclaimed c _ q.claim, t.emptyForward_nil c q.forward, t.emptyInternal_nil c q.internal,
    t.withdrawClaim_unclaimed c _ q.claim, t.abortSurvey_idle c q.survey]
  exact ⟨rfl, rfl⟩

/-- The answer, the notices and the run state of the chain do not bear on whether it is quiet. -/
theorem State.Quiet.ofPort {s t : State} {c : Chain} (q : s.Quiet c) (x : ChainRun)
    (port : t.port c = { s.port c with run := x }) (claim : t.claimNumber c = s.claimNumber c) : t.Quiet c := by
  refine ⟨?_, ?_, ?_, claim.trans q.claim, ?_⟩ <;> rw [port]
  · exact q.free
  · exact q.internal
  · exact q.forward
  · exact q.survey

theorem State.taken_drain_quiet (s : State) (h : s.linkReady) (tag : Byte) (c : Chain) (q : s.Quiet c) :
    s.taken.drain tag c = ((s.withRun c .stopped).answered tag .done .none).notify (.chainStopped c .drain) := by
  have port : ((s.withRun c .draining).answered tag .done .none).port c = { s.port c with run := .draining } :=
    s.setPort_port c _
  have quiet := q.ofPort (t := (s.withRun c .draining).answered tag .done .none) .draining port rfl
  rw [s.taken_drain h tag c, q.free]
  refine (congrArg (State.drained · c) quiet.nothing.1).trans ?_
  rw [State.drained_stops _ c (by rw [port]) quiet.free, State.abortSurvey_idle, port]
  · cases c <;> rfl
  · rw [State.setPort_port, port]
    exact q.survey

theorem HostLink.offer_state (l : HostLink) (f : Outbound) (final : Bool) : (l.offer f final).state = l.state := by
  unfold HostLink.offer
  split <;> rfl

theorem State.taken_abort_quiet (s : State) (h : s.linkReady) (tag : Byte) (c : Chain) (q : s.Quiet c) :
    s.taken.abort tag c =
      ((s.withRun c .stopped).taken.notify (.chainStopped c .abort)).queued (.reply tag .done .none) := by
  have port : (s.withRun c .stopped).taken.port c = { s.port c with run := .stopped } := s.setPort_port c _
  have quiet := q.ofPort (t := (s.withRun c .stopped).taken) .stopped port rfl
  have cut : (s.withRun c .stopped).taken.cutShort c = (s.withRun c .stopped).taken := State.cutShort_free _ c quiet.free
  refine (congrArg (fun t : State => (((((t.withdrawClaim c .stopped).emptyForward c).emptyInternal c).abortSurvey c).notify
    (.chainStopped c .abort)).reply tag .done .none) cut).trans ?_
  rw [quiet.nothing.2]
  refine State.reply_queued _ tag .done .none ?_
  exact (HostLink.offer_state _ _ _).symm ▸ s.taken_open h

/-! ### The waiting claim (R31) -/

theorem RoundRecord.waitsFor_first (r : RoundRecord) (d : Chain) : r.waitsFor d = true ↔
    ∃ before p after, r.parts = before ++ p :: after ∧ p.chain = d ∧ p.state = .waiting ∧ ∀ q ∈ before, q.chain ≠ d := by
  rw [r.waitsFor_iff d]
  constructor
  · rintro ⟨p, part, waits⟩
    obtain ⟨before, after, parts, chain, first⟩ := (r.part_iff d p).1 part
    exact ⟨before, p, after, parts, chain, waits, first⟩
  · rintro ⟨before, p, after, parts, chain, waits, first⟩
    exact ⟨p, (r.part_iff d p).2 ⟨before, after, parts, chain, first⟩, waits⟩

theorem State.claimNumber_unplaced (s : State) (c : Chain) (r : RoundRecord) (h : s.pendingRound = some r) :
    s.claimNumber c = if r.waitsFor c = true then some r.number else none := by
  unfold State.claimNumber
  rw [h]

theorem State.claimNumber_none_iff (s : State) (c : Chain) (h : s.pendingRound = none) :
    s.claimNumber c = none ↔ ∀ x ∈ s.ring, x.closed = true ∨ x.waitsFor c = false := by
  unfold State.claimNumber
  rw [h]
  dsimp only
  unfold State.waitingRound
  rw [Option.map_eq_none_iff, List.find?_eq_none]
  simp [imp_iff_not_or]

/-- Settles O17: the requests by the run state of the chain, the steps of an ABORT, the queues, and the claim that waits. -/
theorem chainStopAnswers : Obligations.ChainStopAnswers := by
  refine ⟨⟨⟨fun s tag chain h => ?_, ?_, ?_⟩, fun v c => v.emptyInternal_eq c⟩, fun s c r => ⟨rfl, rfl, chainOf_none,
    fun d => r.waitsFor_first d, s.claimNumber_unplaced c r, s.claimNumber_none_iff c,
    fun before after none_ ring open_ waits first =>
      s.claimNumber_placed c r none_ (s.waitingRound_first c before after r ring open_ waits first)⟩⟩
  · have drain : ∀ {t}, s.taken.requestDrain tag chain = t → exec (.chainStopDrain tag chain) s = .next t.finish :=
      fun e => exec_request_eq _ s rfl h (congrArg State.finish e)
    have abort : ∀ {t}, s.taken.requestAbort tag chain = t → exec (.chainStopAbort tag chain) s = .next t.finish :=
      fun e => exec_request_eq _ s rfl h (congrArg State.finish e)
    have reply := fun status => s.taken_reply h tag status .none
    refine ⟨fun hc => ?_, fun c hc => ?_⟩
    · obtain ⟨d, a⟩ := s.taken.requestStop_none tag chain hc
      exact ⟨drain (d.trans (reply _)), abort (a.trans (reply _))⟩
    have d := s.taken.requestDrain_chain tag chain c hc
    have a := s.taken.requestAbort_chain tag chain c hc
    have other : ∀ {x y}, (s.port c).run = x → x ≠ y → (s.taken.port c).run ≠ y := fun run ne e => ne (run.symm.trans e)
    have running : (s.port c).run = .running → s.taken.requestDrain tag chain = s.taken.drain tag c ∧
        s.taken.requestAbort tag chain = s.taken.abort tag c := fun run =>
      ⟨d.trans (if_pos run), a.trans (if_neg (other run (by decide)))⟩
    refine ⟨fun run => ⟨drain ?_, abort ?_⟩, fun run => ⟨drain ?_, abort ?_⟩, fun run => ⟨drain ?_, abort ?_⟩,
      fun run free internal forward claim survey => ⟨drain ?_, abort ?_⟩⟩
    · exact (d.trans (if_neg (other run (by decide)))).trans (reply _)
    · exact (a.trans (if_pos run)).trans (reply _)
    · exact (d.trans (if_neg (other run (by decide)))).trans (reply _)
    · exact a.trans (if_neg (other run (by decide)))
    · exact (running run).1.trans (s.taken_drain h tag c)
    · exact (running run).2
    · exact (running run).1.trans (s.taken_drain_quiet h tag c ⟨free, internal, forward, claim, survey⟩)
    · exact (running run).2.trans (s.taken_abort_quiet h tag c ⟨free, internal, forward, claim, survey⟩)
  · rintro s u v tag c rfl rfl
    have port := s.setPort_port c { s.port c with run := .stopped }
    have flying : ((s.setPort c { s.port c with run := .stopped }).port c).transaction = (s.port c).transaction := by
      rw [port]
    have freed := s.freeChain_setPort c { s.port c with run := .stopped }
    refine ⟨(s.setPort c { s.port c with run := .stopped }).cutShort c, rfl, fun free => ?_, fun r trigger collecting => ?_,
      fun o t e due order => ?_, fun o settle broadcast => ?_⟩
    · exact State.cutShort_free _ c (flying.trans free)
    · exact State.cutShort_trigger _ c r (flying.trans trigger) collecting
    · rw [← freed]
      exact State.cutShort_order _ c o t e due (flying.trans order)
    · rw [← freed]
      exact State.cutShort_broadcast _ c o settle (flying.trans broadcast)
  · rintro v c u rfl
    refine ⟨v.emptyForward_eq c, fun h => ?_, fun o h => ⟨fun owner => ?_, fun owner => ?_⟩, v.abortSurvey_idle c, ?_,
      v.drained_stays c, v.drained_stops c⟩
    · exact v.emptyInternal_unreported c fun o ho r => r.elim (h o ho).1 (h o ho).2
    · rw [v.emptyInternal_one c o h (.inl owner), decide_eq_true owner]
    · rw [v.emptyInternal_one c o h (.inr owner), decide_eq_false (by rw [owner]; nofun)]
    · rintro result flying run rfl
      exact v.abortSurvey_flying c flying run

end Sys2Proof.Machine
end

section
/-! SUPPORT. What a closing round makes of the Node Tables, reading by reading. -/

namespace Sys2Proof.Machine

/-! ### One node entry of a SENT part (R27) -/

theorem State.countReading_unlisted (s : State) (c : Chain) (cause : Option EndCause) (x : Reading) (n : RoundNumber)
    (h : s.node c x.position = none) : s.countReading c cause x n = s := by
  unfold State.countReading
  rw [h]

/-- R27: a node that has delivered; a LOST one has returned. -/
theorem State.countReading_delivered (s : State) (c : Chain) (cause : Option EndCause) (x : Reading) (n : RoundNumber)
    (e : NodeEntry) (h : s.node c x.position = some e) (status : x.status ≠ .missing) :
    s.countReading c cause x n = if e.state = .lost then
        (s.mapNode c x.position NodeEntry.deliver).notify (.nodeBack c x.position)
      else s.mapNode c x.position NodeEntry.deliver := by
  unfold State.countReading
  rw [h]
  cases given : x.status with
  | missing => exact absurd given status
  | _ => rfl

/-- R27: a miss of a part that was ABORTED does not count. -/
theorem State.countReading_aborted (s : State) (c : Chain) (x : Reading) (n : RoundNumber) (e : NodeEntry)
    (h : s.node c x.position = some e) (status : x.status = .missing) :
    s.countReading c (some .aborted) x n = s := by
  unfold State.countReading
  rw [h, status]

/-- R27: a miss that counts; a node that it makes LOST is noticed, and the action fires. -/
theorem State.countReading_missed (s : State) (c : Chain) (cause : EndCause) (x : Reading) (n : RoundNumber)
    (e : NodeEntry) (i : Image) (image : s.image = some i) (h : s.node c x.position = some e)
    (status : x.status = .missing) (counts : cause ≠ .aborted) : s.countReading c (some cause) x n =
      if e.state ≠ .lost ∧ (e.miss (i.nodeLossLimit c)).state = .lost then
        ((s.mapNode c x.position fun _ => e.miss (i.nodeLossLimit c)).notify
          (.nodeLost c x.position (e.miss (i.nodeLossLimit c)).missCount)).fire (i.nodeLossAction c)
            (.node c x.position) (some n)
      else s.mapNode c x.position fun _ => e.miss (i.nodeLossLimit c) := by
  have image' : (s.mapNode c x.position fun _ => e.miss (i.nodeLossLimit c)).image = some i := image
  unfold State.countReading
  rw [h, status]
  cases cause with
  | aborted => exact absurd rfl counts
  | _ =>
    dsimp only
    rw [image]
    dsimp only
    rw [image']

theorem NodeEntry.miss_lost (e : NodeEntry) (limit : Nat) (h : e.state = .lost) :
    e.miss limit = { e with missCount := min (e.missCount + 1) 15 } := by
  unfold NodeEntry.miss
  dsimp only
  rw [if_pos h, ← h]

theorem NodeEntry.miss_below (e : NodeEntry) (limit : Nat) (h : e.state ≠ .lost) (below : min (e.missCount + 1) 15 < limit) :
    e.miss limit = { e with missCount := min (e.missCount + 1) 15, state := .missing } := by
  unfold NodeEntry.miss
  dsimp only
  rw [if_neg h, if_neg (Nat.not_le.2 below)]

theorem NodeEntry.miss_limit (e : NodeEntry) (limit : Nat) (h : e.state ≠ .lost) (reached : limit ≤ min (e.missCount + 1) 15) :
    e.miss limit = { e with missCount := min (e.missCount + 1) 15, state := .lost } := by
  unfold NodeEntry.miss
  dsimp only
  rw [if_neg h, if_pos reached]

/-! ### The round (R21, stage 2) -/

/-- Only the SENT parts are counted, in the order of the record. -/
theorem State.countRound_record (v : State) (n : RoundNumber) (r : RoundRecord) (h : v.record n = some r) :
    v.countRound n = (r.parts.filter fun p => Decidable.decide (p.state = .sent)).foldl
      (fun t p => p.readings.foldl (fun t x => t.countReading p.chain p.endCause x n) t) v := by
  unfold State.countRound
  rw [h, List.foldl_filter]
  dsimp only
  refine congrArg (fun g => List.foldl g v r.parts) (funext₂ fun t p => ?_)
  unfold State.countPart
  simp only [decide_eq_true_eq]

theorem State.countRound_none (v : State) (n : RoundNumber) (h : v.record n = none) : v.countRound n = v := by
  unfold State.countRound
  rw [h]

/-- R14: a part lists the planned positions of its chain, whatever its state at the planned instant. -/
theorem State.newPart_readings (s : State) (planned : Instant) (c : Chain) :
    (s.newPart planned c).readings = s.blankReadings c := by
  unfold State.newPart
  dsimp only
  split
  · rfl
  · split <;> rfl

/-- R4: a step names no chain, one, or both with chain A first. -/
theorem chainsOf_mem (code : Nat) : chainsOf code ∈ [[], [.A], [.B], [.A, .B]] := by
  unfold chainsOf
  by_cases one : code = 1
  · simp [one]
  · by_cases two : code = 2
    · simp [two]
    · by_cases three : code = 3
      · simp [three]
      · simp [one, two, three]

/-- Settles O30: a reading by its status and the end of its part, and the walk over the SENT parts. -/
theorem roundsCountNodes : Obligations.RoundsCountNodes := by
  refine ⟨fun s c cause x n e i image h => ⟨?_, ?_, fun status counts => ?_⟩, fun v n r =>
    ⟨v.countRound_record n r, v.countRound_none n, fun c cause x => v.countReading_unlisted c cause x n, v.mapNode_eq⟩,
    fun s i c planned code => ⟨s.newPart_readings planned c, chainsOf_mem code, (planned_ascends _ 0).1⟩⟩
  · rintro status u rfl
    have counted := s.countReading_delivered c (some cause) x n e h status
    exact ⟨fun present => counted.trans (if_neg present), fun lost => counted.trans (if_pos lost)⟩
  · rintro status rfl
    exact s.countReading_aborted c x n e h status
  · have counted := s.countReading_missed c cause x n e i image h status counts
    refine ⟨fun lost => ?_, fun present below => ?_, fun present limit => ?_⟩
    · rw [counted, if_neg fun g => g.1 lost, e.miss_lost _ lost]
    · rw [e.miss_below _ present below] at counted
      exact counted.trans (if_neg fun g => nomatch g.2)
    · rw [e.miss_limit _ present limit] at counted
      exact counted.trans (if_pos ⟨present, rfl⟩)

end Sys2Proof.Machine
end

section
/-! SUPPORT. The end of a commit, the apply, and the Node Tables that it rebuilds. -/

namespace Sys2Proof.Machine

/-! ### A request of the bridge for a survey (R48) -/

/-- R48, R50: a survey that begins changes the ports and the link alone. -/
theorem State.startSurvey_frame (s : State) (c : Chain) : ∃ p l, s.startSurvey c = { s with ports := p, link := l } := by
  unfold State.startSurvey
  dsimp only
  split <;> exact ⟨_, _, rfl⟩

theorem State.requestSurvey_frame (s : State) (c : Chain) : ∃ p l, s.requestSurvey c = { s with ports := p, link := l } := by
  unfold State.requestSurvey State.beginSurvey
  split
  · obtain ⟨p, l, h⟩ := s.startSurvey_frame c
    obtain ⟨p', l', g⟩ := (s.startSurvey c).pendingSurvey_frame c
    exact ⟨p', l', by rw [g, h]⟩
  · exact ⟨_, _, rfl⟩

/-- R48: a request that finds the bridge in RUN, the chain RUNNING and no survey in flight. -/
theorem State.requestSurvey_begins (s : State) (c : Chain) (idle : (s.port c).survey = .idle) (op : s.sleep.op = .run)
    (runs : (s.port c).run = .running) : s.requestSurvey c = s.beginSurvey c :=
  if_pos (by simp [State.surveyAllowed, State.runs, idle, op, runs])

/-! ### The Node Tables of a new image (R26, R30) -/

/-- R30: the table takes the new plan, and a changed plan requests a survey. -/
theorem State.rebuildNodes_image (w : State) (c : Chain) (i : Image) (h : w.image = some i) : w.rebuildNodes c =
    if (w.port c).table.map (fun e => Planned.mk e.position e.cells e.temps) = i.plan c then
      w.setPort c { w.port c with table := rebuildTable (w.port c).table (i.plan c) }
    else (w.setPort c { w.port c with table := rebuildTable (w.port c).table (i.plan c) }).requestSurvey c := by
  unfold State.rebuildNodes planChanged
  rw [h]
  simp only [State.mapPort_eq_setPort, bne_iff_ne, ne_eq, ite_not]

theorem State.rebuildNodes_frame (w : State) (c : Chain) : ∃ p l, w.rebuildNodes c = { w with ports := p, link := l } := by
  cases h : w.image with
  | none =>
    refine ⟨w.ports, w.link, ?_⟩
    unfold State.rebuildNodes
    rw [h]
  | some i =>
    rw [w.rebuildNodes_image c i h]
    split
    · exact ⟨_, _, rfl⟩
    · exact State.requestSurvey_frame _ c

theorem State.rebuildBoth_frame (w : State) :
    ∃ p l, (w.rebuildNodes .A).rebuildNodes .B = { w with ports := p, link := l } := by
  obtain ⟨p, l, h⟩ := w.rebuildNodes_frame .A
  obtain ⟨p', l', g⟩ := (w.rebuildNodes .A).rebuildNodes_frame .B
  exact ⟨p', l', by rw [g, h]⟩

/-- The entry is one of a position with its planned counts. -/
abbrev NodeEntry.fits (e : NodeEntry) (p : Planned) : Prop := e.position = p.position ∧ e.cells = p.cells ∧ e.temps = p.temps

/-- R30: a planned position keeps an entry with the same counts, and takes a fresh one where there is none. -/
theorem rebuildTable_getElem (old : List NodeEntry) (plan : List Planned) (n : Nat) (p : Planned) (h : plan[n]? = some p) :
    ∃ e, (rebuildTable old plan)[n]? = some e ∧ e.fits p ∧ (e ∈ old ∨ (e = .fresh p ∧ ∀ d ∈ old, ¬d.fits p)) := by
  unfold rebuildTable
  rw [List.getElem?_map, h]
  refine ⟨_, rfl, ?_⟩
  dsimp only
  cases found : old.find? fun e => e.position == p.position && e.cells == p.cells && e.temps == p.temps with
  | some e =>
    have fits := List.find?_some found
    simp only [Bool.and_eq_true, beq_iff_eq, and_assoc] at fits
    exact ⟨fits, .inl (List.mem_of_find?_eq_some found)⟩
  | none =>
    refine ⟨⟨rfl, rfl, rfl⟩, .inr ⟨rfl, fun d hd fits => ?_⟩⟩
    have := List.find?_eq_none.1 found d hd
    simp only [Bool.and_eq_true, beq_iff_eq, and_assoc] at this
    exact this fits

/-! ### The supervision window at the apply (R134) -/

theorem State.refitWindow_stays (w : State) (h : w.window.armed = false ∨ w.window.reference = none) : w.refitWindow = w := by
  unfold State.refitWindow
  split
  · rename_i armed reference
    rcases h with h | h
    · rw [h] at armed; cases armed
    · rw [h] at reference; cases reference
  · rfl

/-- R134: an armed window takes the new expiry, and a TIMEOUT where that is past. -/
theorem State.refitWindow_armed (w u : State) (r : Instant) (armed : w.window.armed = true)
    (reference : w.window.reference = some r)
    (hu : u = { w with window := { w.window with expiry := some (r + millis w.wmax) } }) : w.refitWindow =
      if reached (r + millis w.wmax) w.time = true then u.superviseFault .timeout else u := by
  unfold State.refitWindow
  rw [armed, reference, hu]
  rfl

/-- R134: where no TIMEOUT is taken, the expiry alone may change. -/
theorem State.refitWindow_frame (w : State) (h : w.window.armed = false ∨
    (∃ r, w.window.reference = some r ∧ reached (r + millis w.wmax) w.time = false)) :
    ∃ expiry, w.refitWindow = { w with window := { w.window with expiry := expiry } } := by
  cases armed : w.window.armed with
  | false => exact ⟨w.window.expiry, w.refitWindow_stays (.inl armed)⟩
  | true =>
    obtain ⟨r, reference, ahead⟩ := h.resolve_left (by simp [armed])
    exact ⟨_, (w.refitWindow_armed _ r armed reference rfl).trans (if_neg (by simp [ahead]))⟩

/-! ### The apply (R167) -/

theorem State.workingEpoch_eq (v : State) (previous : Epoch) (some_ : ∀ w, v.working = some w → previous = w.epoch)
    (none_ : v.working = none → previous = 0#32) : v.workingEpoch = previous := by
  unfold State.workingEpoch
  cases working : v.working with
  | none => exact (none_ working).symm
  | some w => exact (some_ w working).symm

/-- R167: what an apply changes in a bridge that is not UNCONFIGURED, where no TIMEOUT is taken. -/
theorem State.apply_frame (v : State) (op : v.sleep.op ≠ .unconfigured) (h : v.window.armed = false ∨
    (∃ r, v.window.reference = some r ∧
      reached (r + millis (v.store.slot v.store.committed).image.shared.wmax) v.time = false)) :
    ∃ ports link expiry, v.apply = { v.takeImage v.store.committed with
      ports := ports, link := link, window := { v.window with expiry := expiry }
      update := { v.update.emptied with
        lastOutcome := some (.commitDone (v.store.slot v.store.committed).epoch, v.time) } } := by
  obtain ⟨ports, link, rebuilt⟩ := (v.takeImage v.store.committed).rebuildBoth_frame
  obtain ⟨expiry, refit⟩ :=
    State.refitWindow_frame { v.takeImage v.store.committed with ports := ports, link := link } h
  have stays : (((v.takeImage v.store.committed).rebuildNodes .A).rebuildNodes .B).refitWindow.leaveUnconfigured =
      { v.takeImage v.store.committed with
        ports := ports, link := link, window := { v.window with expiry := expiry } } := by
    rw [rebuilt, refit]
    exact if_neg op
  have done := congrArg (State.commitDone · v.workingEpoch v.cursor.cycles) stays
  exact ⟨ports, _, expiry, done⟩

/-! ### The end of a commit (R163, R164) -/

section

variable (s : State) (k : Slot) (e : Epoch) (target : s.update.target = some k) (staged : s.update.stagedEpoch = some e)

include target in
theorem State.endWriting_target (i : Image) : s.endWriting i = { s with
    store := s.store.setSlot k { s.store.slot k with image := i }, update := { s.update with state := .verifying }
    commit := { s.commit with bound := some (s.time + 2000#32) } } := by
  unfold State.endWriting
  rw [target]
  rfl

include target in
theorem State.invalidateTarget_target : s.invalidateTarget = s.setSlot k fun c => { c with state := .invalid } := by
  unfold State.invalidateTarget
  rw [target]

include target staged in
theorem State.failCommit_verify : s.failCommit .verify = ({ s with
    store := s.store.setSlot k { s.store.slot k with state := .invalid }
    update := { s.update with
      state := .closed, staging := none, stagedEpoch := none, idleExpiry := none, target := none
      lastOutcome := some (.commitFailed .verify, s.time) }
    commit := .none } : State).notify (.commitFailed .verify (some e)) := by
  unfold State.failCommit
  dsimp only
  rw [s.invalidateTarget_target k target, if_pos rfl, staged]
  rfl

include target in
theorem State.readBackWord_target :
    s.readBackWord = checkWord s.store.identity (s.store.slot k).epoch (s.store.slot k).image := by
  unfold State.readBackWord
  rw [target]

/-- R164: the swap, after which the apply is pending. -/
def State.swapped : State := { s with
  store := { s.store.setSlot k { s.store.slot k with state := .valid, epoch := e, check := s.commit.kept } with floor := e }
  update := { s.update with
    state := .applyPending, staging := none, stagedEpoch := none, idleExpiry := none, target := none }
  commit := .none }

include target staged in
theorem State.swap_target :
    s.swap = if s.sleep.op = .unconfigured then (s.swapped k e).apply else s.swapped k e := by
  have epoch : s.stagedEpoch = e := by
    unfold State.stagedEpoch
    rw [staged]
    rfl
  unfold State.swap
  dsimp only
  rw [target, epoch]
  rfl

end

theorem State.updating_of (s : State) (u : UpdateState) (h : s.update.state = u) : s.updating u = true := beq_iff_eq.2 h

/-- Settles O56: the phases of a commit, the apply with its frame, and its steps by name. -/
theorem commitEndsAndApplies : Obligations.CommitEndsAndApplies := by
  refine ⟨⟨fun s k e i held target staged => ⟨fun writing => ?_, fun writing => ?_, fun verifying => ?_,
    s.failCommit_verify k e target staged, fun verifying fails => ?_, ?_⟩, ?_, ?_, fun w previous cycles =>
    ⟨w.refitWindow_stays, fun r u armed reference hu => ?_, fun op => if_neg op, fun op => if_pos op, rfl⟩⟩,
    fun x c => ⟨rfl, rfl, rfl, rfl, rfl⟩⟩
  · rw [exec_writingEnd s i held (s.updating_of _ writing), s.endWriting_target k target i]
  · rw [exec_storeFault s held]
    unfold State.takeStoreFault
    rw [writing]
  · rw [exec_storeFault s held]
    unfold State.takeStoreFault
    rw [verifying]
  · rw [exec_readbackEnd s held (s.updating_of _ verifying)]
    rw [← s.readBackWord_target k target] at fails
    exact congrArg (fun t => Host.Outcome.next (State.finish t)) (if_pos fails)
  · rintro u rfl verifying sound word
    rw [exec_readbackEnd s held (s.updating_of _ verifying)]
    rw [← s.readBackWord_target k target] at word
    have read : s.endReadBack = s.swap := if_neg fun fails => fails.elim (by simp [sound]) (· word)
    rw [read, s.swap_target k e target staged]
    exact ⟨fun op => congrArg (fun t => Host.Outcome.next (State.finish t)) (if_neg op),
      fun op => congrArg (fun t => Host.Outcome.next (State.finish t)) (if_pos op)⟩
  · rintro v a k x previous hk rfl some_ none_ rfl
    obtain rfl : k = v.store.committed := hk
    refine ⟨?_, fun op window => ?_⟩
    · rw [← v.workingEpoch_eq previous some_ none_]
      rfl
    · obtain ⟨ports, link, expiry, applied⟩ := v.apply_frame op window
      exact ⟨ports, link, _, applied, rfl, rfl, rfl, rfl, rfl⟩
  · rintro w u i c old image rfl hu
    have rebuilt := w.rebuildNodes_image c i image
    rw [← hu] at rebuilt
    refine ⟨fun same => rebuilt.trans (if_pos same), fun changed => rebuilt.trans (if_neg changed), u.requestSurvey_pending c,
      fun idle op runs e rest table => ?_, List.length_map _, fun n p h => ?_⟩
    · rw [u.requestSurvey_begins c idle op runs, u.beginSurvey_cons c e rest table]
    · obtain ⟨e, found, ⟨position, cells, temps⟩, origin⟩ := rebuildTable_getElem (w.port c).table _ n p h
      exact ⟨e, found, position, cells, temps, origin⟩
  · have refit := w.refitWindow_armed u r armed reference hu
    exact ⟨fun ahead => refit.trans (if_neg (by simp [ahead])), fun past => refit.trans (if_pos past)⟩

end Sys2Proof.Machine
end

section
/-! SUPPORT. Start-up selection: the slots, the image that works, and the Node Tables it builds. -/

namespace Sys2Proof.Machine

/-! ### The slots (R155) -/

theorem Slot.forall_iff (p : Slot → Prop) : (∀ k, p k) ↔ p .A ∧ p .B :=
  ⟨fun h => ⟨h .A, h .B⟩, fun ⟨a, b⟩ k => by cases k; exacts [a, b]⟩

theorem ImageStore.acceptable_iff (x : ImageStore) (k : Slot) : (x.slot k).acceptable x.floor = true ↔
    (x.slot k).state = .valid ∧ x.floor ≤ (x.slot k).epoch := by
  unfold SlotContents.acceptable
  simp

theorem ImageStore.select_none_iff (x : ImageStore) :
    x.select = none ↔ ∀ k, ¬((x.slot k).state = .valid ∧ x.floor ≤ (x.slot k).epoch) := by
  refine Iff.trans ?_ (forall_congr' fun k => not_congr (x.acceptable_iff k))
  rw [Slot.forall_iff]
  unfold ImageStore.select ImageStore.slot
  cases x.slotA.acceptable x.floor with
  | false => cases x.slotB.acceptable x.floor <;> simp
  | true =>
    cases x.slotB.acceptable x.floor with
    | false => simp
    | true => dsimp only; split <;> simp

/-- R155, step 3: the slot that is selected is acceptable, and none that is has a higher epoch. -/
theorem ImageStore.select_some (x : ImageStore) (k : Slot) (h : x.select = some k) :
    (x.slot k).acceptable x.floor = true ∧
      ∀ j, (x.slot j).acceptable x.floor = true → (x.slot j).epoch ≤ (x.slot k).epoch := by
  unfold ImageStore.select at h
  simp only [Slot.forall_iff, ImageStore.slot]
  split at h
  · rename_i a b
    split at h <;> cases h
    · rename_i lt
      exact ⟨b, fun _ => BitVec.le_of_lt lt, fun _ => BitVec.le_refl _⟩
    · rename_i ge
      exact ⟨a, fun _ => BitVec.le_refl _, fun _ => BitVec.not_lt.1 ge⟩
  · rename_i a b
    cases h
    exact ⟨a, fun _ => BitVec.le_refl _, fun h => by simp [b] at h⟩
  · rename_i a b
    cases h
    exact ⟨b, fun h => by simp [a] at h, fun _ => BitVec.le_refl _⟩
  · cases h

/-- R155, step 3: at equal epochs slot A is selected. -/
theorem ImageStore.select_equal (x : ImageStore) (a : x.slotA.acceptable x.floor = true)
    (b : x.slotB.acceptable x.floor = true) (equal : x.slotA.epoch = x.slotB.epoch) : x.select = some .A := by
  unfold ImageStore.select
  rw [a, b]
  exact if_neg (by rw [equal]; exact BitVec.lt_irrefl _)

/-- R155, steps 1 and 2: what the examination makes of a slot. -/
theorem ImageStore.examined_slot (x : ImageStore) (k : Slot) :
    x.examined.slot k = (x.slot k).examined x.identity := by
  cases k <;> rfl

theorem SlotContents.examined_writing (c : SlotContents) (identity : BitVec 64) (h : c.state = .writing) :
    c.examined identity = { c with state := .invalid } := by
  unfold SlotContents.examined
  rw [h]

theorem SlotContents.examined_valid (c : SlotContents) (identity : BitVec 64) (h : c.state = .valid) :
    c.examined identity =
      if checkWord identity c.epoch c.image = c.check then c else { c with state := .invalid } := by
  unfold SlotContents.examined
  rw [h]

theorem SlotContents.examined_other (c : SlotContents) (identity : BitVec 64) (h : c.state = .erased ∨ c.state = .invalid) :
    c.examined identity = c := by
  unfold SlotContents.examined
  rcases h with h | h <;> rw [h]

/-! ### The end of selection (R155, R168, R171) -/

/-- R168: a filter that begins. -/
theorem InputFilter.begin_eq (level : Bool) (now : Instant) : InputFilter.begin_ level now =
    if level then ⟨true, false, some true, some (now + 1000#32)⟩ else ⟨true, false, none, none⟩ := by
  cases level <;> rfl

/-- R155, R168, R171: the slots are examined, the link opens, the filters begin, and the tamper latch is loaded. -/
def State.slotsExamined (s : State) : State := { s with
  store := s.store.examined
  startup := none
  link := s.link.openLink
  tampFilter := .begin_ s.pins.tamp s.time
  svcFilter := .begin_ s.pins.svc s.time
  update := { s.update.emptied with latch := s.store.tamperFlag } }

/-- R26: the image that works and its Node Tables change the working copy, the limits, the ports and the link alone. -/
theorem State.startRun_frame (s : State) (k : Slot) :
    ∃ p l, s.startRun k = { s.takeImage k with ports := p, link := l } := (s.takeImage k).rebuildBoth_frame

theorem State.endSelection_none (s : State) (h : s.store.examined.select = none) :
    s.endSelection = (s.slotsExamined.joinInternal .A .rouse).joinInternal .B .rouse := by
  delta State.endSelection
  extract_lets t u
  have none_ : u.store.select = none := h
  rw [none_]
  rfl

theorem State.endSelection_some (s : State) (k : Slot) (h : s.store.examined.select = some k) : s.endSelection =
    (((({ s.slotsExamined.startRun k with sleep := { s.slotsExamined.sleep with op := .run } } : State).startCursor).joinInternal .A
      .rouse).joinInternal .B .rouse).pendingSurveys := by
  obtain ⟨p, l, run⟩ := s.slotsExamined.startRun_frame k
  have sleep : (s.slotsExamined.startRun k).sleep = s.slotsExamined.sleep := by rw [run]; rfl
  rw [← sleep]
  delta State.endSelection
  extract_lets t u
  have some_ : u.store.select = some k := h
  rw [some_]
  rfl

/-! ### The Node Tables of the image (R26) -/

/-- R26: over an empty table, before the bridge is RUN: the survey of a plan that has a position stays pending. -/
theorem State.rebuildNodes_empty (v : State) (c : Chain) (i : Image) (image : v.image = some i)
    (table : (v.port c).table = []) (op : v.sleep.op ≠ .run) : v.rebuildNodes c = v.setPort c { v.port c with
      table := (i.plan c).map NodeEntry.fresh
      surveyPending := if i.plan c = [] then (v.port c).surveyPending else true } := by
  rw [v.rebuildNodes_image c i image, table, rebuildTable_nil]
  by_cases plan : i.plan c = []
  · rw [if_pos (by rw [plan]; rfl), if_pos plan]
  · rw [if_neg fun e => plan (e.symm.trans List.map_nil), if_neg plan]
    refine (State.requestSurvey_pending _ c ?_).trans ?_
    · exact fun ⟨_, run, _⟩ => op run
    · rw [State.setPort_port, State.setPort_setPort]

/-- Settles O39: the end of selection, the choice of the slot, and the Node Tables. -/
theorem startupSelects : Obligations.StartupSelects := by
  refine ⟨⟨?_, fun s k => rfl, fun x => ⟨x.select_none_iff, fun k h => ?_, fun a b floor equal => ?_, fun k => ?_⟩⟩, ?_, ?_⟩
  · rintro s u held running update shut rfl
    have selects : ∀ {t}, s.endSelection = t → exec .startupSelectionEnd s = .next t.finish := fun e =>
      (exec_startupSelectionEnd s held (Option.isSome_iff_ne_none.2 running)).trans
        (congrArg (fun t => Host.Outcome.next (State.finish t)) e)
    have emptied : s.update.emptied = s.update := by rw [update]; rfl
    have selected := s.endSelection_none
    have started := s.endSelection_some
    unfold State.slotsExamined at selected started
    rw [emptied, InputFilter.begin_eq, InputFilter.begin_eq] at selected started
    exact ⟨fun h => selects (selected h), fun k h => selects (started k h)⟩
  · obtain ⟨acceptable, highest⟩ := x.select_some k h
    obtain ⟨valid, floor⟩ := (x.acceptable_iff k).1 acceptable
    exact ⟨valid, floor, fun j state above => highest j ((x.acceptable_iff j).2 ⟨state, above⟩)⟩
  · exact x.select_equal ((x.acceptable_iff .A).2 ⟨a, floor⟩) ((x.acceptable_iff .B).2 ⟨b, equal ▸ floor⟩) equal
  · rw [x.examined_slot k]
    exact ⟨(x.slot k).examined_writing _, fun valid wrong => ((x.slot k).examined_valid _ valid).trans (if_neg wrong),
      fun valid right => ((x.slot k).examined_valid _ valid).trans (if_pos right), (x.slot k).examined_other _⟩
  · rintro s u k x rfl rfl
    rfl
  · rintro v c i o p rfl image
    exact ⟨v.rebuildNodes_empty c i image, rfl, rfl, rfl, rfl, v.pendingSurvey_none c _ rfl,
      fun e rest pending idle op runs => v.pendingSurvey_begins c e rest pending idle op runs⟩

end Sys2Proof.Machine
end

section
/-! SUPPORT. The bounds and the sets that every step keeps, move by move; and the SHUT link of blocks that are held. -/

namespace Sys2Proof.Machine

/-! ### What the moves that do not bear on a block leave of it -/

/-- The blocks that the bounds and the sets are about stand as they did. -/
structure State.BlocksKept (s t : State) : Prop where
  inhibit  : t.inhibit = s.inhibit
  link     : t.link = s.link
  stream   : t.stream = s.stream
  captures : t.captures = s.captures
  ring     : t.ring = s.ring

theorem State.blocksKept_of_guarded {s t : State} (h : t.guarded = s.guarded) : s.BlocksKept t := by
  simp only [State.guarded, Prod.mk.injEq] at h
  obtain ⟨_, _, _, inhibit, _, link, _, _, stream, captures, ring, _⟩ := h
  exact ⟨inhibit, link, stream, captures, ring⟩

theorem State.syncWindow_blocksKept (s : State) : s.BlocksKept s.syncWindow := by
  obtain ⟨w, h⟩ := s.syncWindow_frame
  rw [h]
  exact ⟨rfl, rfl, rfl, rfl, rfl⟩

theorem State.placeRound_inhibit (s : State) (r : RoundRecord) : (s.placeRound r).inhibit = s.inhibit := by
  obtain ⟨_, _, h⟩ := s.placeRound_frame r
  rw [h]

theorem State.placeRound_link (s : State) (r : RoundRecord) : (s.placeRound r).link = s.link := by
  obtain ⟨_, _, h⟩ := s.placeRound_frame r
  rw [h]

theorem State.placeRound_stream (s : State) (r : RoundRecord) : (s.placeRound r).stream = s.stream := by
  obtain ⟨_, _, h⟩ := s.placeRound_frame r
  rw [h]

/-! ### The outbound queue (R175, R177) -/

theorem HostLink.offer_owed (l : HostLink) (f : Outbound) (final : Bool) : (l.offer f final).owed = l.owed := by
  unfold HostLink.offer
  split <;> rfl

theorem HostLink.push_unsolicited (l : HostLink) (f : Outbound) (final : Bool) :
    (l.push f final).unsolicited = l.unsolicited + if f.isAnswer then 0 else 1 := by
  unfold HostLink.unsolicited HostLink.push
  rw [List.filter_append, List.length_append]
  cases h : f.isAnswer <;> simp [h]

theorem HostLink.unsolicited_mono {l m : HostLink} (h : l.queue.Sublist m.queue) : l.unsolicited ≤ m.unsolicited :=
  (h.filter _).length_le

/-- R177: a frame that is no answer joins fewer than 12 of its class. -/
theorem HostLink.accepts_room (l : HostLink) (f : Outbound) (h : l.accepts f = true) (a : f.isAnswer = false) :
    l.unsolicited < 12 := by
  unfold HostLink.accepts at h
  rw [a] at h
  cases state : l.state <;> simp_all

theorem HostLink.offer_unsolicited (l : HostLink) (f : Outbound) (final : Bool) (h : l.unsolicited ≤ 12) :
    (l.offer f final).unsolicited ≤ 12 := by
  unfold HostLink.offer
  split
  · rename_i accepts
    rw [l.push_unsolicited]
    cases a : f.isAnswer with
    | true => exact h
    | false => exact l.accepts_room f accepts a
  · exact h

/-- R175, R177: every move keeps the bounds of the answers owed and of the unsolicited frames. -/
theorem Move.queueBounded {s t : State} (m : Move s t) (h : s.queueBounded) : t.queueBounded := by
  have same : ∀ {t : State}, t.link = s.link → t.queueBounded := fun e => by unfold State.queueBounded; rw [e]; exact h
  obtain ⟨owed, unsolicited⟩ := h
  cases m with
  | quiet g => exact same (State.blocksKept_of_guarded g).link
  | offer f final => exact ⟨(s.link.offer_owed f final).trans_le owed, s.link.offer_unsolicited f final unsolicited⟩
  | accept takes =>
    have room : s.link.owed < 4 := by simpa using (Bool.and_eq_true_iff.1 takes).2
    exact ⟨room, unsolicited⟩
  | link l queue fewer => exact ⟨fewer.trans owed, (HostLink.unsolicited_mono queue).trans unsolicited⟩
  | place r => exact same (s.placeRound_link r)
  | pullIn => exact same (State.syncWindow_blocksKept _).link
  | dropout => exact same (State.syncWindow_blocksKept _).link
  | opened => exact same (State.syncWindow_blocksKept _).link
  | _ => exact same rfl

/-! ### The history and the captures (R52, R88) -/

/-- R52: of the history and the word that joins it the newest 256 stay. -/
theorem CurrentStream.take_history_length (c : CurrentStream) (value : BitVec 24) (sequence : Byte) (now : Instant) :
    (c.take value sequence now).history.length ≤ 256 := by
  unfold CurrentStream.take
  rw [List.length_drop, List.length_append, List.length_singleton]
  omega

theorem Move.historyBounded {s t : State} (m : Move s t) (h : s.historyBounded) : t.historyBounded := by
  have same : ∀ {t : State}, t.stream.history = s.stream.history → t.historyBounded := fun e => by
    unfold State.historyBounded; rw [e]; exact h
  cases m with
  | quiet g => exact same (congrArg CurrentStream.history (State.blocksKept_of_guarded g).stream)
  | word value sequence now => exact s.stream.take_history_length value sequence now
  | stream c kept => exact same kept
  | place r => exact same (congrArg CurrentStream.history (s.placeRound_stream r))
  | pullIn => exact same (congrArg CurrentStream.history (State.syncWindow_blocksKept _).stream)
  | dropout => exact same (congrArg CurrentStream.history (State.syncWindow_blocksKept _).stream)
  | opened => exact same (congrArg CurrentStream.history (State.syncWindow_blocksKept _).stream)
  | _ => exact same rfl

/-- R83: captures may mark a round DROPPED as another is placed; none joins or leaves. -/
theorem State.placeRound_captures_length (s : State) (r : RoundRecord) :
    (s.placeRound r).captures.list.length = s.captures.list.length := by
  unfold State.placeRound
  dsimp only
  split
  · exact List.length_map _
  · rfl

theorem Move.capturesBounded {s t : State} (m : Move s t) (h : s.capturesBounded) : t.capturesBounded := by
  have fewer : ∀ {t : State}, t.captures.list.length ≤ s.captures.list.length → t.capturesBounded := fun e => e.trans h
  have same : ∀ {t : State}, t.captures = s.captures → t.capturesBounded := fun e =>
    fewer (congrArg (fun u => u.list.length) e).le
  cases m with
  | quiet g => exact same (State.blocksKept_of_guarded g).captures
  | capture u c room joins =>
    have length : u.list.length = s.captures.list.length + 1 := by rw [joins, List.length_append, List.length_singleton]
    exact length.trans_le room
  | captures u le => exact fewer le
  | place r => exact fewer (s.placeRound_captures_length r).le
  | pullIn => exact same (State.syncWindow_blocksKept _).captures
  | dropout => exact same (State.syncWindow_blocksKept _).captures
  | opened => exact same (State.syncWindow_blocksKept _).captures
  | _ => exact same rfl

/-! ### The round numbers of the ring (R83) -/

theorem dropOldestFree_sublist (l : List RoundRecord) : (dropOldestFree l).Sublist l := by
  induction l with
  | nil => exact .refl _
  | cons r rest ih =>
    unfold dropOldestFree
    split
    · exact List.sublist_cons_self r rest
    · exact ih.cons_cons r

/-- R82, R83: a round that is placed stands at the tail, behind records of the ring that have other numbers. -/
theorem State.placeRound_ring (s : State) (r : RoundRecord) : ∃ l : List RoundRecord, l.Sublist s.ring ∧
    (∀ x ∈ l, x.number ≠ r.number) ∧ (s.placeRound r).ring = l ++ [r] := by
  have part : ∀ l : List RoundRecord, (if l.length < 32 then l else dropOldestFree l).Sublist l := fun l => by
    split
    · exact .refl l
    · exact dropOldestFree_sublist l
  by_cases again : ∃ x ∈ s.ring, x.number = r.number
  · refine ⟨_, (part (s.takeOut r.number).ring).trans List.filter_sublist, fun x hx => ?_,
      congrArg State.ring (s.placeRound_again _ r rfl again)⟩
    have other := (List.mem_filter.1 ((part _).subset hx)).2
    simpa using other
  · have new : ∀ x ∈ s.ring, x.number ≠ r.number := fun x hx e => again ⟨x, hx, e⟩
    exact ⟨_, part s.ring, fun x hx => new x ((part _).subset hx), congrArg State.ring (s.placeRound_new r new)⟩

theorem State.placeRound_distinct (s : State) (r : RoundRecord) (h : s.ringDistinct) : (s.placeRound r).ringDistinct := by
  obtain ⟨l, sub, others, ring⟩ := s.placeRound_ring r
  unfold State.ringDistinct
  rw [ring, List.map_append]
  refine List.Nodup.append (h.sublist (sub.map _)) (List.nodup_singleton _) fun n hn hr => ?_
  obtain ⟨x, hx, rfl⟩ := List.mem_map.1 hn
  exact others x hx (List.mem_singleton.1 hr)

theorem Move.ringDistinct {s t : State} (m : Move s t) (h : s.ringDistinct) : t.ringDistinct := by
  have same : ∀ {t : State}, t.ring = s.ring → t.ringDistinct := fun e => by unfold State.ringDistinct; rw [e]; exact h
  cases m with
  | quiet g => exact same (State.blocksKept_of_guarded g).ring
  | records f keeps =>
    have numbers : (s.ring.map f).map RoundRecord.number = s.ring.map RoundRecord.number := by
      rw [List.map_map]
      exact List.map_congr_left fun r _ => keeps r
    unfold State.ringDistinct
    rw [numbers]
    exact h
  | place r => exact s.placeRound_distinct r h
  | pullIn => exact same (State.syncWindow_blocksKept _).ring
  | dropout => exact same (State.syncWindow_blocksKept _).ring
  | opened => exact same (State.syncWindow_blocksKept _).ring
  | _ => exact same rfl

/-! ### The reclose inhibit set (R129) -/

theorem Move.inhibit_nodup {s t : State} (m : Move s t) (h : s.inhibit.Nodup) : t.inhibit.Nodup := by
  have same : ∀ {t : State}, t.inhibit = s.inhibit → t.inhibit.Nodup := fun e => e ▸ h
  cases m with
  | quiet g => exact same (State.blocksKept_of_guarded g).inhibit
  | inhibit c new => exact h.append (List.nodup_singleton c) fun d hd e => new (List.mem_singleton.1 e ▸ hd)
  | place r => exact same (s.placeRound_inhibit r)
  | pullIn => exact same (State.syncWindow_blocksKept _).inhibit
  | dropout => exact same (State.syncWindow_blocksKept _).inhibit
  | opened => exact same (State.syncWindow_blocksKept _).inhibit
  | _ => exact same rfl

/-! ### Blocks that a pin reset holds (R171, R182) -/

/-- After a reset the link is SHUT, whatever RESET# does. -/
theorem Resets.heldIsShut {s t : State} (r : Resets s t) : t.heldIsShut := fun _ => by
  refine ⟨congrArg HostLink.state r.link, r.op, fun e he => ?_⟩
  rw [r.link] at he
  unfold HostLink.reset at he
  cases selected : s.selected with
  | false => rw [selected] at he; exact absurd he (by simp)
  | true => rw [selected] at he; exact Option.some.inj he ▸ rfl

/-- R182: a command leaves blocks that are held as they are, begins or ends an exchange of the SHUT link, or is a reset. -/
theorem exec_keeps_heldIsShut (i : Instr) (s t : State) (held : s.held = true) (h : s.heldIsShut)
    (e : exec i s = .next t) : t.heldIsShut := by
  have answers : ∀ {u : State}, exec i s = .next u → u.heldIsShut → t.heldIsShut := fun g k =>
    Host.Outcome.next.inj (g.symm.trans e) ▸ k
  obtain ⟨shut, op, kind⟩ := h held
  rcases exec_held i s held with same | ⟨p, reset, pins⟩ | (rfl | ⟨b, rfl⟩) | rfl | rfl
  · exact answers same h
  · exact answers pins fun _ => ⟨shut, op, kind⟩
  · refine answers (congrArg Host.Outcome.next (s.beginExchange_unconfigured shut op)) fun _ => ⟨shut, op, fun x hx => ?_⟩
    dsimp only at hx
    split at hx
    · exact Option.some.inj hx ▸ rfl
    · exact kind x hx
  · exact answers (congrArg Host.Outcome.next (s.endExchange_shut b kind)) fun _ => ⟨shut, op, fun x hx => by cases hx⟩
  · exact answers rfl (s.afterReset_resets _ _ _).heldIsShut
  · refine answers (exec_resetHigh_eq s) ?_
    rw [s.held_iff.1 held]
    exact (s.afterReset_resets _ _ _).heldIsShut

/-- R182: a step that is no reset neither begins nor ends a pin reset, so that the blocks it leaves held were held before it. -/
theorem step_keeps_heldIsShut (s t : State) (h : s.heldIsShut) (e : step s = .next t) : t.heldIsShut := by
  rcases step_stepped s t e with changed | ⟨u, _, resets⟩
  · intro held
    have before : s.held = true := changed.held.symm.trans held
    refine (?_ : t.heldIsShut) held
    cases pending : s.pending with
    | nil => exact Host.Outcome.next.inj ((step_held s pending before).symm.trans e) ▸ h
    | cons i rest =>
      unfold step at e
      rw [pending] at e
      exact exec_keeps_heldIsShut i { s with pending := rest } t before h e
  · exact resets.heldIsShut

/-- Settles O7: each bound and set by the moves, the removal of a cause and the reset; the held blocks by the commands. -/
theorem boundsAndSetsHold : Obligations.BoundsAndSetsHold := by
  refine ⟨fun s t h e => ?_, fun s t ⟨history, captures⟩ e => ⟨?_, ?_⟩, fun s t h e => ?_, fun s t h e => ?_,
    step_keeps_heldIsShut⟩
  · refine step_keeps (P := State.queueBounded) (fun _ _ m => m.queueBounded) (fun _ _ _ p => p) (fun s t r _ => ?_) e h
    unfold State.queueBounded
    rw [r.link]
    exact ⟨Nat.zero_le 4, Nat.zero_le 12⟩
  · refine step_keeps (P := State.historyBounded) (fun _ _ m => m.historyBounded) (fun _ _ _ p => p) (fun s t r _ => ?_) e
      history
    unfold State.historyBounded
    rw [r.stream]
    exact Nat.zero_le 256
  · refine step_keeps (P := State.capturesBounded) (fun _ _ m => m.capturesBounded) (fun _ _ _ p => p) (fun s t r _ => ?_) e
      captures
    unfold State.capturesBounded
    rw [r.captures]
    exact Nat.zero_le 3
  · refine step_keeps (P := State.ringDistinct) (fun _ _ m => m.ringDistinct) (fun _ _ _ p => p) (fun s t r _ => ?_) e h
    unfold State.ringDistinct
    rw [r.ring]
    exact List.nodup_nil
  · exact step_keeps (P := fun s => s.inhibit.Nodup) (fun _ _ m => m.inhibit_nodup) (fun _ _ sub p => p.sublist sub)
      (fun s t r _ => r.inhibit ▸ List.nodup_nil) e h

end Sys2Proof.Machine
end

section
/-! SUPPORT. The current stream: a word that is taken, the bits of a word, and the loss of the stream. -/

namespace Sys2Proof.Machine

/-! ### A word that is taken (R51 to R56) -/

theorem CurrentStream.startsSpan_eq (c : CurrentStream) : c.startsSpan = decide (c.state ≠ .live) := by
  unfold CurrentStream.startsSpan
  cases c.state <;> rfl

/-- R52: the gap flag is set where a span starts and where the sequence number does not follow the newest word's. -/
theorem CurrentStream.gapBefore_iff (c : CurrentStream) (sequence : Byte) : c.gapBefore sequence = true ↔
    c.state ≠ .live ∨ ∀ x, c.history.getLast? = some x → sequence ≠ x.sequence + 1#8 := by
  unfold CurrentStream.gapBefore
  rw [c.startsSpan_eq]
  cases c.history.getLast? <;> simp

theorem OpState.takesWords_iff (o : OpState) : o.takesWords = true ↔ o = .run ∨ o = .unconfigured := by
  cases o <;> simp [OpState.takesWords]

/-- R51: outside RUN and UNCONFIGURED a word is not taken. -/
theorem State.takeWord_outside (s : State) (word : BitVec 32) (run : s.sleep.op ≠ .run)
    (unconfigured : s.sleep.op ≠ .unconfigured) : s.takeWord word = s :=
  if_neg fun h => (s.sleep.op.takesWords_iff.1 h).elim run unconfigured

/-- R52 to R54, R56: a word that is taken joins the history, brings a LOST stream back, and is handed on. -/
theorem State.takeWord_taken (s u : State) (word : BitVec 32) (gap : Bool) (op : s.sleep.op = .run ∨ s.sleep.op = .unconfigured)
    (hgap : gap = true ↔ s.stream.state ≠ .live ∨
      ∀ x, s.stream.history.getLast? = some x → wordSequence word ≠ x.sequence + 1#8)
    (hu : u = { s with stream := { s.stream with
      history := (s.stream.history ++ [CurrentSample.mk (wordValue word) (wordSequence word) s.time gap
        (Decidable.decide (s.stream.state ≠ .live))]).drop (s.stream.history.length + 1 - 256)
      state := .live, lossExpiry := some (s.time + 1000#32) } }) :
    s.takeWord word = (if s.stream.state = .lost then u.notify (.currentBack (wordValue word) (wordSequence word) s.time)
      else u).handWord (wordValue word) (wordSequence word) gap := by
  have gapBefore : s.stream.gapBefore (wordSequence word) = gap :=
    Bool.eq_iff_iff.2 ((s.stream.gapBefore_iff _).trans hgap.symm)
  have joined : { s with stream := s.stream.take (wordValue word) (wordSequence word) s.time } = u := by
    unfold CurrentStream.take
    rw [gapBefore, s.stream.startsSpan_eq, hu]
  unfold State.takeWord
  rw [if_pos (s.sleep.op.takesWords_iff.2 op)]
  dsimp only
  rw [gapBefore, joined]
  simp only [beq_iff_eq]

/-- R152: which words are judged is the image's alone. -/
theorem State.judgesWords_of_working {s t : State} (h : t.working = s.working) : t.judgesWords = s.judgesWords := by
  unfold State.judgesWords State.limitEntries State.image
  rw [h]

/-- R56: a word that nobody is to be handed has no further effect. -/
theorem State.handWord_none (s : State) (value : BitVec 24) (sequence : Byte) (gap : Bool) (judges : s.judgesWords = false)
    (sequencer : s.sequencer.state ≠ .precharging) : s.handWord value sequence gap = s := by
  unfold State.handWord
  rw [judges, if_neg sequencer]
  exact s.anyOrder_none

/-! ### The loss of the stream (R53, R54, R59) -/

/-- R53, R59: the stream is LOST, and CURRENT_LOST shows its newest word (entry 58). -/
def State.streamLost (s : State) : State :=
  ({ s with stream := { s.stream with state := .lost, lossExpiry := none } } : State).notify
    (.currentLost ⟨s.stream.history.getLast?.map fun x => ⟨x.value, x.sequence, x.arrival⟩, .lost⟩)

theorem State.loseStream_eq (s : State) : s.loseStream = if s.allOpen then s.streamLost else
    match s.shared with
    | some p => s.streamLost.fire p.currentLossAction .current none
    | none => s.streamLost := rfl

/-- R54: with every channel OPEN, and while UNCONFIGURED, no action fires. -/
theorem State.loseStream_unfired (s : State) (h : s.allOpen = true ∨ s.image = none) : s.loseStream = s.streamLost := by
  rw [s.loseStream_eq]
  split
  · rfl
  · rename_i opened
    unfold State.shared
    rw [h.resolve_left opened]
    rfl

/-- R54: the action fires where a channel is not OPEN. -/
theorem State.loseStream_fires (s : State) (i : Image) (h : s.allOpen = false) (image : s.image = some i) :
    s.loseStream = s.streamLost.fire i.shared.currentLossAction .current none := by
  rw [s.loseStream_eq, if_neg (by simp [h]), s.shared_of_image image]

/-! ### The bits of a word (R51) -/

/-- R51: the 32nd bit completes the word, and the bits past it are ignored. -/
theorem State.receiveBits_complete (s : State) (bits more : List Bool) (word : BitVec 32) (h : s.held = false)
    (strobe : s.pins.csfs = true) (empty : s.stream.bits = []) (whole : bits.length = 32)
    (hw : ∀ n, n < 32 → word.getMsbD n = bits.getD n false) : (bits ++ more).foldl (fun s b => s.receiveBit b) s = { s with
      stream := { s.stream with bits := bits }, pending := s.pending ++ [.currentWord word] } := by
  obtain ⟨first, last, rfl⟩ : ∃ first last, bits = first ++ [last] :=
    ⟨_, _, (List.dropLast_append_getLast (List.ne_nil_of_length_pos (by omega))).symm⟩
  have length : first.length = 31 := by simpa using whole
  have gathered := s.receiveBits_gather first h strobe (by rw [empty, length]; decide)
  rw [empty, List.nil_append] at gathered
  have completed : (first ++ [last]).foldl (fun s b => s.receiveBit b) s = { s with
      stream := { s.stream with bits := first ++ [last] }, pending := s.pending ++ [.currentWord word] } := by
    rw [List.foldl_append, gathered, eq_wordOf _ word whole hw]
    refine (State.receiveBit_more { s with stream := { s.stream with bits := first } } last h strobe ?_).trans ?_
    · show first.length < 32
      omega
    · dsimp only
      rw [if_pos whole]
  rw [List.foldl_append, completed]
  exact State.receiveBits_ignored _ more h (.inr whole.ge)

/-- Settles O32: the word that is taken, the loss of the stream, and the bits that gather. -/
theorem currentStreamFollowsWords : Obligations.CurrentStreamFollowsWords := by
  refine ⟨⟨fun s word h => ⟨fun run unconfigured => ?_, ?_, ?_⟩, ?_⟩, rfl, fun _ _ _ _ _ => rfl⟩
  · rw [exec_currentWord s word h, s.takeWord_outside word run unconfigured]
  · rintro value sequence gap u op rfl rfl hgap hu
    have taken := s.takeWord_taken u word gap op hgap hu
    rw [exec_currentWord s word h, taken]
    refine ⟨fun kept => ?_, fun lost => ?_, fun kept judges sequencer => ?_⟩
    · rw [if_neg kept]
      rfl
    · rw [if_pos lost]
      rfl
    · have unjudged : u.judgesWords = false := (State.judgesWords_of_working (by rw [hu])).trans judges
      rw [if_neg kept, u.handWord_none _ _ _ unjudged (by rw [hu]; exact sequencer)]
  · rintro due u live expiry reached rfl
    have lossDue : s.lossDue = true := by
      unfold State.lossDue expired
      rw [live, expiry]
      exact reached
    rw [exec_lossTimerExpiry s h lossDue]
    exact ⟨fun unfired => congrArg Host.Outcome.next (s.loseStream_unfired unfired),
      fun i closed image => congrArg Host.Outcome.next (s.loseStream_fires i closed image)⟩
  · rintro s bits more active receive h rfl
    refine ⟨fun same => if_pos same, fun other => if_neg other, fun idle => s.receiveBits_ignored bits h (.inl idle),
      fun strobe empty => ⟨fun short => ?_, fun word whole hw => s.receiveBits_complete bits more word h strobe empty whole hw⟩⟩
    exact (s.receiveBits_gather bits h strobe (by rw [empty]; simpa using short)).trans (by rw [empty, List.nil_append])

end Sys2Proof.Machine
end

section
/-! SUPPORT. An open request, the opening under load, and the current report. -/

namespace Sys2Proof.Machine

/-! ### The current as the channel's events show it (R59, R112) -/

theorem State.latestCurrent_eq (s : State) : s.latestCurrent = if s.stream.state = .absent then none else
    s.stream.history.getLast?.map fun x => ⟨x.value, x.sequence, x.arrival⟩ := by
  unfold State.latestCurrent
  cases s.stream.state <;> rfl

theorem State.latestCurrent_some_iff (s : State) (l : LatestCurrent) : s.latestCurrent = some l ↔
    s.stream.state ≠ .absent ∧ ∃ c, s.stream.history.getLast? = some c ∧ c.latest = l := by
  rw [s.latestCurrent_eq]
  by_cases absent : s.stream.state = .absent
  · simp [absent]
  · rw [if_neg absent, Option.map_eq_some_iff]
    exact ⟨fun h => ⟨absent, h⟩, fun ⟨_, h⟩ => h⟩

/-- R112: the role is NEG or POS, and a latest current is present whose magnitude exceeds the break current. -/
theorem State.underLoad_iff (s : State) (k : ChannelId) (i : Image) (h : s.image = some i) : s.underLoad k = true ↔
    ((i.channelProfile k).role = .neg ∨ (i.channelProfile k).role = .pos) ∧
      ∃ l, s.latestCurrent = some l ∧ i.shared.breakCurrent < magnitude l.value := by
  unfold State.underLoad
  rw [s.shared_of_image h, s.role_of_image k h]
  cases (i.channelProfile k).role <;> cases s.latestCurrent <;> simp

/-! ### An open request (R105, R111, R113) -/

theorem State.openRequest_open (s : State) (k : ChannelId) (by_ : Requester) (closing : Option RoundNumber)
    (h : (s.channel k).state.isClosed = false) : s.openRequest k by_ closing = s := if_neg (by simp [h])

/-- R105: the channel enters DROPOUT with its drive off, and the window stays armed. -/
theorem State.enterDropout_closed (s : State) (k : ChannelId) (f : Channel → Channel) (i : Image) (h : s.image = some i)
    (closed : (s.channel k).state.isClosed = true) (window : s.windowFollows) : s.enterDropout k f =
      (s.setChannel k { f (s.channel k) with
        state := .dropout, phaseExpiry := some (s.time + millis (i.channelProfile k).dropout) }).setDrive k .off := by
  have notOpen : (s.channel k).state ≠ .opened := fun e => by rw [e] at closed; cases closed
  unfold State.enterDropout State.dropoutEnd
  rw [s.profile_of_image k h]
  exact s.syncWindow_of_closed k window notOpen _ _ nofun

/-- R113: the notice of a channel that has just changed. -/
theorem State.noticeContactor_changed (s : State) (k : ChannelId) (c : Channel) (d : Drive) (before : ChannelState)
    (reason : ChangeReason) (load : Bool) : ((s.setChannel k c).setDrive k d).noticeContactor k before reason load =
      ((s.setChannel k c).setDrive k d).notifyAwake
        (.contactor k (s.role k) before c.state reason c.stuck c.dropped c.welded load s.currentReport) := by
  unfold State.noticeContactor
  rw [State.channel_setDrive, State.channel_setChannel, if_pos rfl]
  rfl

theorem State.captureOnUnderLoad_image (s : State) (i : Image) (h : s.image = some i) :
    s.captureOnUnderLoad = i.shared.captureOnUnderLoad := by
  unfold State.captureOnUnderLoad
  rw [s.shared_of_image h]

/-- R111, R113: the opening is recorded and noticed, and under load it may request a capture (entry 45). -/
theorem State.openRequest_closed (s u : State) (k : ChannelId) (by_ : Requester) (closing : Option RoundNumber) (i : Image)
    (h : s.image = some i) (closed : (s.channel k).state.isClosed = true) (window : s.windowFollows)
    (hu : u = ({ s with
      channels := s.channels.set k { s.channel k with
        state := .dropout, phaseExpiry := some (s.time + millis (i.channelProfile k).dropout)
        lastOpening := some ⟨s.time, by_, (s.channel k).state, s.currentReport, s.underLoad k⟩ }
      drives := s.drives.set k .off } : State).notifyAwake
        (.contactor k (some (i.channelProfile k).role) (s.channel k).state .dropout (.openRequest by_) (s.channel k).stuck
          (s.channel k).dropped (s.channel k).welded (s.underLoad k) s.currentReport)) :
    s.openRequest k by_ closing =
      if s.underLoad k = true ∧ i.shared.captureOnUnderLoad = true then u.requestCapture (.underLoad k) closing else u := by
  have image : u.image = some i := by
    obtain ⟨l, e⟩ := State.notifyAwake_frame _ _
    rw [hu, e]
    exact h
  unfold State.openRequest
  rw [if_pos closed]
  dsimp only
  rw [s.enterDropout_closed k _ i h closed window, s.noticeContactor_changed, s.role_of_image k h]
  simp only [Bool.and_eq_true]
  rw [← u.captureOnUnderLoad_image i image, hu]
  rfl

/-- Settles O41: the open request by the state of its channel, the load by the latest current, and the parts by name. -/
theorem openRequestsDropOut : Obligations.OpenRequestsDropOut := by
  refine ⟨⟨fun s k by_ closing => ⟨s.openRequest_open k by_ closing, fun i u h closed window hu =>
    s.openRequest_closed u k by_ closing i h closed window hu⟩, fun s k i h => ?_⟩, fun s k => ⟨rfl, ?_, rfl, ?_, ?_⟩⟩
  · rw [s.underLoad_iff k i h]
    simp only [s.latestCurrent_some_iff]
    refine and_congr_right fun _ => ⟨?_, ?_⟩
    · rintro ⟨_, ⟨absent, c, hc, rfl⟩, exceeds⟩
      exact ⟨absent, c, hc, exceeds⟩
    · rintro ⟨absent, c, hc, exceeds⟩
      exact ⟨c.latest, ⟨absent, c, hc, rfl⟩, exceeds⟩
  · unfold State.currentReport
    rw [s.latestCurrent_eq]
  · intro unconfigured
    unfold State.workingEpoch
    rw [unconfigured]
  · intro w working
    unfold State.workingEpoch
    rw [working]

end Sys2Proof.Machine
end

section
/-! SUPPORT. READ_CAPTURE: the part it names, the capture with an id, and the part's answer. -/

namespace Sys2Proof.Machine

/-! ### The part that READ_CAPTURE names (R94, R185) -/

theorem capturePart_none : ∀ part index : Byte,
    part ≠ 1#8 ∧ part ≠ 2#8 ∧ part ≠ 3#8 ∨ (part = 2#8 ∨ part = 3#8) ∧ 7 < index.toNat → capturePart part index = none := by
  rintro part index (⟨header, current, round⟩ | ⟨rfl | rfl, past⟩)
  · unfold capturePart
    split
    · exact absurd rfl header
    · exact absurd rfl current
    · exact absurd rfl round
    · rfl
  · exact if_neg (by omega)
  · exact if_neg (by omega)

theorem capturePart_header (index : Byte) : capturePart 1#8 index = some .header := rfl

theorem capturePart_current (index : Byte) (h : index.toNat ≤ 7) : capturePart 2#8 index = some (.current index.toNat) :=
  if_pos h

theorem capturePart_round (index : Byte) (h : index.toNat ≤ 7) : capturePart 3#8 index = some (.round index.toNat) :=
  if_pos h

/-! ### The capture with an id -/

theorem State.captureWith_none_iff (s : State) (id : Byte) : s.captureWith id = none ↔ ∀ d ∈ s.captures.list, d.id ≠ id := by
  unfold State.captureWith
  simp [List.find?_eq_none]

theorem State.captureWith_some (s : State) (id : Byte) (c : Capture) (h : s.captureWith id = some c) :
    c ∈ s.captures.list ∧ c.id = id := ⟨List.mem_of_find?_eq_some h, by simpa using List.find?_some h⟩

theorem State.captureWith_of_unique (s : State) (id : Byte) (c : Capture) (mem : c ∈ s.captures.list) (hid : c.id = id)
    (unique : ∀ d ∈ s.captures.list, d.id = id → d = c) : s.captureWith id = some c := by
  cases found : s.captureWith id with
  | none => exact absurd hid ((s.captureWith_none_iff id).1 found c mem)
  | some d =>
    obtain ⟨hd, hdid⟩ := s.captureWith_some id d found
    rw [unique d hd hdid]

/-! ### The answer to a part (R94, R95) -/

theorem State.requestReadCapture_badArgument (s : State) (tag id part index : Byte) (h : capturePart part index = none) :
    s.requestReadCapture tag id part index = s.reply tag .badArgument .none := by
  unfold State.requestReadCapture
  rw [h]

theorem State.requestReadCapture_noCapture (s : State) (tag id part index : Byte) {p : CapturePart}
    (h : capturePart part index = some p) (none_ : s.captureWith id = none) :
    s.requestReadCapture tag id part index = s.reply tag .noSuch .none := by
  unfold State.requestReadCapture
  rw [h, none_]

theorem State.requestReadCapture_header (s : State) (tag id index : Byte) (c : Capture) (h : s.captureWith id = some c) :
    s.requestReadCapture tag id 1#8 index = s.reply tag .done (.captureHeader c.header) := by
  unfold State.requestReadCapture
  rw [capturePart_header, h]

theorem Capture.block_eq_nil_iff (c : Capture) (b : Nat) : c.block b = [] ↔ c.samples.length ≤ 32 * b := by
  unfold Capture.block
  rw [List.take_eq_nil_iff, List.drop_eq_nil_iff]
  simp

/-- R95: a CURRENT block that has an entry. -/
theorem State.requestReadCapture_current (s : State) (tag id index : Byte) (c : Capture) (h : s.captureWith id = some c)
    (range : index.toNat ≤ 7) : s.requestReadCapture tag id 2#8 index =
      if c.samples.length ≤ 32 * index.toNat then s.reply tag .noSuch .none
      else s.reply tag .done (.currentBlock (c.block index.toNat)) := by
  unfold State.requestReadCapture
  rw [capturePart_current index range, h]
  simp only [List.isEmpty_iff, c.block_eq_nil_iff]

/-- R95: a held round is answered with its record. -/
theorem State.requestReadCapture_round (s : State) (tag id index : Byte) (c : Capture) (h : s.captureWith id = some c)
    (range : index.toNat ≤ 7) (r : RoundRecord) (record : s.heldRecord c index.toNat = some r) :
    s.requestReadCapture tag id 3#8 index = s.reply tag .done (.roundPart index r) := by
  unfold State.requestReadCapture
  rw [capturePart_round index range, h]
  dsimp only
  rw [record]

theorem State.requestReadCapture_noRound (s : State) (tag id index : Byte) (c : Capture) (h : s.captureWith id = some c)
    (range : index.toNat ≤ 7) (record : s.heldRecord c index.toNat = none) :
    s.requestReadCapture tag id 3#8 index = s.reply tag .noSuch .none := by
  unfold State.requestReadCapture
  rw [capturePart_round index range, h]
  dsimp only
  rw [record]

theorem State.heldRecord_none (s : State) (c : Capture) (index : Nat) (h : c.held[index]? = none) :
    s.heldRecord c index = none := by
  unfold State.heldRecord
  rw [h]

theorem State.heldRecord_some (s : State) (c : Capture) (index : Nat) (x : HeldRound) (h : c.held[index]? = some x) :
    s.heldRecord c index = if x.dropped then none else s.record x.number := by
  unfold State.heldRecord
  rw [h]

/-- Settles O22: the tests of R94 in their order, and the answer to each part. -/
theorem readCaptureAnswers : Obligations.ReadCaptureAnswers := by
  refine ⟨fun s tag id part index ready => ?_, fun s id c => ⟨s.captureWith_none_iff id, s.captureWith_some id c,
    fun mem hid unique => s.captureWith_of_unique id c mem hid unique⟩⟩
  have answered : ∀ (part : Byte) (x : ReplyStatus) (r : ResultData),
      s.taken.requestReadCapture tag id part index = s.taken.reply tag x r →
        exec (.readCapture tag id part index) s = .next (s.answered tag x r) := fun part x r e =>
    exec_request_eq _ s rfl ready (e.trans (s.taken_reply ready tag x r))
  refine ⟨fun bad => ?_, fun named none_ => ?_, fun c found => ⟨?_, fun range entries => ?_, fun range past => ?_,
    fun h r range at_ kept record => ?_, fun h range at_ dropped => ?_, fun range at_ => ?_⟩⟩
  · exact answered _ _ _ (s.taken.requestReadCapture_badArgument tag id part index (capturePart_none part index bad))
  · have part_ : ∃ p, capturePart part index = some p := by
      rcases named with rfl | ⟨rfl | rfl, range⟩
      · exact ⟨_, capturePart_header index⟩
      · exact ⟨_, capturePart_current index range⟩
      · exact ⟨_, capturePart_round index range⟩
    obtain ⟨p, hp⟩ := part_
    exact answered _ _ _ (s.taken.requestReadCapture_noCapture tag id part index hp none_)
  · exact answered _ _ _ (s.taken.requestReadCapture_header tag id index c found)
  · exact answered _ _ _ ((s.taken.requestReadCapture_current tag id index c found range).trans (if_neg (by omega)))
  · exact answered _ _ _ ((s.taken.requestReadCapture_current tag id index c found range).trans (if_pos past))
  · have held := (s.taken.heldRecord_some c _ h at_).trans ((if_neg (by simp [kept])).trans record)
    exact answered _ _ _ (s.taken.requestReadCapture_round tag id index c found range r held)
  · have held := (s.taken.heldRecord_some c _ h at_).trans (if_pos dropped)
    exact answered _ _ _ (s.taken.requestReadCapture_noRound tag id index c found range held)
  · exact answered _ _ _ (s.taken.requestReadCapture_noRound tag id index c found range (s.taken.heldRecord_none c _ at_))

end Sys2Proof.Machine
end

section
/-! SUPPORT. The Limit Evaluator: the verdicts on a round and on a word, the runs of verdicts, and the walks over the enabled
entries. -/

namespace Sys2Proof.Machine

/-! ### The values and the node entries that an entry covers (R62, R63) -/

theorem inRange_eq_decide (low high x : Nat) : inRange low high x = Decidable.decide (low ≤ x ∧ x ≤ high) := by
  unfold inRange
  rw [Bool.decide_and]

theorem Reading.delivered_eq_decide (x : Reading) :
    x.delivered = Decidable.decide (x.status = .ok ∨ x.status = .unaligned) := by
  unfold Reading.delivered
  cases x.status <;> rfl

/-- R62, R64: the covered values, chain by chain, position by position, channel by channel. -/
theorem coveredValues_eq (e : LimitEntry) (r : RoundRecord) : coveredValues e r =
    (r.parts.filter fun p => Decidable.decide (p.chain ∈ e.chains)).flatMap fun p =>
      (p.readings.filter fun x => Decidable.decide (e.firstPosition ≤ x.position ∧ x.position ≤ e.lastPosition ∧
        (x.status = .ok ∨ x.status = .unaligned))).flatMap fun x =>
          ((quantityValues e.quantity x).zipIdx.filter fun v =>
            Decidable.decide (e.firstChannel ≤ v.2 + 1 ∧ v.2 + 1 ≤ e.lastChannel)).map
              fun v => ⟨p.chain, x.position, v.2 + 1, v.1⟩ := by
  unfold coveredValues coveredReadings
  rw [List.filter_flatMap, List.flatMap_assoc]
  simp only [List.contains_eq_mem, List.filter_map, List.filter_filter, List.flatMap_map, Function.comp_def, inRange_eq_decide,
    Reading.delivered_eq_decide, ← Bool.decide_and, and_comm, and_assoc]

theorem coveredReadings_isEmpty_iff (e : LimitEntry) (r : RoundRecord) : (coveredReadings e r).isEmpty = false ↔
    ∃ p ∈ r.parts, p.chain ∈ e.chains ∧ ∃ x ∈ p.readings, e.firstPosition ≤ x.position ∧ x.position ≤ e.lastPosition := by
  rw [List.isEmpty_eq_false_iff_exists_mem]
  simp only [coveredReadings, List.mem_flatMap, List.mem_map, List.mem_filter, List.contains_eq_mem, decide_eq_true_eq,
    inRange_eq_decide]
  constructor
  · rintro ⟨_, p, ⟨part, chain⟩, x, reading, rfl⟩
    exact ⟨p, part, chain, x, reading⟩
  · rintro ⟨p, part, chain, x, reading⟩
    exact ⟨_, p, ⟨part, chain⟩, x, reading, rfl⟩

/-- R63: the kinds of sampling that measure a quantity. -/
theorem kindMeasures_iff (k : SampleKind) (q : Quantity) : kindMeasures k q = true ↔
    (q = .cell ∨ q = .spread) ∧ (k = .cells ∨ k = .both) ∨ q = .temp ∧ (k = .temps ∨ k = .both) := by
  cases q <;> cases k <;> simp [kindMeasures]

/-- R63: the rounds an entry applies to. -/
theorem appliesToRound_iff (e : LimitEntry) (r : RoundRecord) : appliesToRound e r = true ↔
    (if r.step = .patrol then e.asleep = true else e.awake = true) ∧
      ((e.quantity = .cell ∨ e.quantity = .spread) ∧ (r.kind = .cells ∨ r.kind = .both) ∨
        e.quantity = .temp ∧ (r.kind = .temps ∨ r.kind = .both)) ∧
      ∃ p ∈ r.parts, p.chain ∈ e.chains ∧ ∃ x ∈ p.readings, e.firstPosition ≤ x.position ∧ x.position ≤ e.lastPosition := by
  rw [← kindMeasures_iff, ← coveredReadings_isEmpty_iff]
  unfold appliesToRound
  rw [Bool.and_eq_true, Bool.and_eq_true, Bool.not_eq_true', and_assoc]
  refine and_congr_left' ?_
  by_cases patrol : r.step = .patrol
  · rw [if_pos patrol, if_pos (beq_iff_eq.2 patrol)]
  · rw [if_neg patrol, if_neg (mt beq_iff_eq.1 patrol)]

/-! ### The verdicts (R64 to R66) -/

theorem outside_eq_true_iff (e : LimitEntry) (v : Int) : outside e v = true ↔ v < e.low ∨ e.high < v := by
  unfold outside
  rw [Bool.or_eq_true, decide_eq_true_iff, decide_eq_true_iff]

theorem outside_eq_false_iff (e : LimitEntry) (v : Int) : outside e v = false ↔ e.low ≤ v ∧ v ≤ e.high := by
  rw [← Bool.not_eq_true, outside_eq_true_iff, not_or, Int.not_lt, Int.not_lt]

theorem withoutViolation_ne_violate (e : LimitEntry) (r : RoundRecord) : (withoutViolation e r).1 ≠ .violate := by
  unfold withoutViolation
  split <;> nofun

theorem withoutViolation_unknown_iff (e : LimitEntry) (r : RoundRecord) : (withoutViolation e r).1 = .unknown ↔
    ∃ x ∈ coveredReadings e r, x.2.status = .missing ∨ x.2.status = .checkFailed := by
  rw [← incomplete_iff]
  unfold withoutViolation
  split
  · rename_i missing
    exact iff_of_true rfl missing
  · rename_i complete
    exact iff_of_false nofun complete

/-- R64, R65: a round that keeps the bounds is UNKNOWN where a node delivered nothing; one that does not is VIOLATE. -/
theorem judgeRound_iff_of_bounds {e : LimitEntry} {r : RoundRecord} {Kept : Prop}
    (kept : Kept → judgeRound e r = withoutViolation e r) (beyond : ¬ Kept → (judgeRound e r).1 = .violate) :
    ((judgeRound e r).1 = .violate ↔ ¬ Kept) ∧ ((judgeRound e r).1 = .unknown ↔
      Kept ∧ ∃ x ∈ coveredReadings e r, x.2.status = .missing ∨ x.2.status = .checkFailed) := by
  by_cases k : Kept
  · rw [kept k]
    exact ⟨iff_of_false (withoutViolation_ne_violate e r) (not_not_intro k),
      (withoutViolation_unknown_iff e r).trans (and_iff_right k).symm⟩
  · rw [beyond k]
    exact ⟨iff_of_true rfl k, iff_of_false nofun fun h => k h.1⟩

theorem judgeRound_each_none (e : LimitEntry) (r : RoundRecord) (h : e.quantity = .cell ∨ e.quantity = .temp)
    (found : ((coveredValues e r).find? fun v => outside e v.value) = none) : judgeRound e r = withoutViolation e r := by
  unfold judgeRound
  rcases h with h | h <;> simp only [h, found]

theorem judgeRound_each_some (e : LimitEntry) (r : RoundRecord) (h : e.quantity = .cell ∨ e.quantity = .temp) {v : Located}
    (found : ((coveredValues e r).find? fun v => outside e v.value) = some v) :
    judgeRound e r = (.violate, some (.value v)) := by
  unfold judgeRound
  rcases h with h | h <;> simp only [h, found]

theorem judgeRound_each_kept (e : LimitEntry) (r : RoundRecord) (h : e.quantity = .cell ∨ e.quantity = .temp)
    (kept : ∀ v ∈ coveredValues e r, e.low ≤ v.value ∧ v.value ≤ e.high) : judgeRound e r = withoutViolation e r :=
  judgeRound_each_none e r h (List.find?_eq_none.2 fun v hv => Bool.not_eq_true _ ▸ (outside_eq_false_iff e _).2 (kept v hv))

theorem judgeRound_each_beyond (e : LimitEntry) (r : RoundRecord) (h : e.quantity = .cell ∨ e.quantity = .temp)
    (beyond : ¬ ∀ v ∈ coveredValues e r, e.low ≤ v.value ∧ v.value ≤ e.high) : (judgeRound e r).1 = .violate := by
  cases found : (coveredValues e r).find? fun v => outside e v.value with
  | some v => rw [judgeRound_each_some e r h found]
  | none =>
    exact absurd (fun v hv => (outside_eq_false_iff e _).1 (Bool.eq_false_of_not_eq_true (List.find?_eq_none.1 found v hv)))
      beyond

/-- R64: a TRIP shows the first value outside. -/
theorem judgeRound_each_first (e : LimitEntry) (r : RoundRecord) (h : e.quantity = .cell ∨ e.quantity = .temp)
    (before : List Located) (v : Located) (after : List Located) (covered : coveredValues e r = before ++ v :: after)
    (inside : ∀ w ∈ before, e.low ≤ w.value ∧ w.value ≤ e.high) (beyond : v.value < e.low ∨ e.high < v.value) :
    judgeRound e r = (.violate, some (.value v)) :=
  judgeRound_each_some e r h (List.find?_eq_some_iff_append.2 ⟨(outside_eq_true_iff e _).2 beyond, before, after, covered,
    fun w hw => by rw [(outside_eq_false_iff e _).2 (inside w hw)]; rfl⟩)

theorem judgeRound_spread_nil (e : LimitEntry) (r : RoundRecord) (h : e.quantity = .spread) (covered : coveredValues e r = []) :
    judgeRound e r = withoutViolation e r := by
  unfold judgeRound
  simp only [h, covered, largestOf]

theorem judgeRound_spread_of_extremes (e : LimitEntry) (r : RoundRecord) (h : e.quantity = .spread) {l s : Located}
    (largest : largestOf (coveredValues e r) = some l) (smallest : smallestOf (coveredValues e r) = some s) :
    judgeRound e r = if e.high < l.value - s.value then (.violate, some (.spread (l.value - s.value) l s))
      else withoutViolation e r := by
  unfold judgeRound
  simp only [h, largest, smallest]

theorem judgeRound_spread_kept (e : LimitEntry) (r : RoundRecord) (h : e.quantity = .spread)
    (kept : ∀ v ∈ coveredValues e r, ∀ w ∈ coveredValues e r, v.value - w.value ≤ e.high) :
    judgeRound e r = withoutViolation e r := by
  by_cases covered : coveredValues e r = []
  · exact judgeRound_spread_nil e r h covered
  · obtain ⟨l, hl, largest, _⟩ := largestOf_exists _ covered
    obtain ⟨s, hs, smallest, _⟩ := smallestOf_exists _ covered
    rw [judgeRound_spread_of_extremes e r h largest smallest, if_neg (Int.not_lt.2 (kept l hl s hs))]

theorem judgeRound_spread_beyond (e : LimitEntry) (r : RoundRecord) (h : e.quantity = .spread)
    (beyond : ¬ ∀ v ∈ coveredValues e r, ∀ w ∈ coveredValues e r, v.value - w.value ≤ e.high) :
    (judgeRound e r).1 = .violate := by
  simp only [not_forall, Int.not_le] at beyond
  obtain ⟨v, hv, w, hw, apart⟩ := beyond
  obtain ⟨l, _, largest, above⟩ := largestOf_exists _ (List.ne_nil_of_mem hv)
  obtain ⟨s, _, smallest, below⟩ := smallestOf_exists _ (List.ne_nil_of_mem hv)
  have hl := above v hv
  have hs := below w hw
  rw [judgeRound_spread_of_extremes e r h largest smallest, if_pos (by omega)]

/-- R64: the verdict of a CELL or TEMP entry. -/
theorem judgeRound_each_iff (e : LimitEntry) (r : RoundRecord) (h : e.quantity = .cell ∨ e.quantity = .temp) :
    ((judgeRound e r).1 = .violate ↔ ∃ v ∈ coveredValues e r, v.value < e.low ∨ e.high < v.value) ∧
    ((judgeRound e r).1 = .unknown ↔ (∀ v ∈ coveredValues e r, e.low ≤ v.value ∧ v.value ≤ e.high) ∧
      ∃ x ∈ coveredReadings e r, x.2.status = .missing ∨ x.2.status = .checkFailed) := by
  obtain ⟨violate, unknown⟩ := judgeRound_iff_of_bounds (judgeRound_each_kept e r h) (judgeRound_each_beyond e r h)
  refine ⟨violate.trans ?_, unknown⟩
  simp only [not_forall, not_and_or, Int.not_le, exists_prop]

/-- R65: the verdict of a SPREAD entry. -/
theorem judgeRound_spread_iff (e : LimitEntry) (r : RoundRecord) (h : e.quantity = .spread) :
    ((judgeRound e r).1 = .violate ↔ ∃ v ∈ coveredValues e r, ∃ w ∈ coveredValues e r, e.high < v.value - w.value) ∧
    ((judgeRound e r).1 = .unknown ↔ (∀ v ∈ coveredValues e r, ∀ w ∈ coveredValues e r, v.value - w.value ≤ e.high) ∧
      ∃ x ∈ coveredReadings e r, x.2.status = .missing ∨ x.2.status = .checkFailed) := by
  obtain ⟨violate, unknown⟩ := judgeRound_iff_of_bounds (judgeRound_spread_kept e r h) (judgeRound_spread_beyond e r h)
  refine ⟨violate.trans ?_, unknown⟩
  simp only [not_forall, Int.not_le, exists_prop]

/-- R65: a TRIP shows the spread with the first of the largest and of the smallest values. -/
theorem judgeRound_spread_first (e : LimitEntry) (r : RoundRecord) (before : List Located) (largest : Located)
    (after front : List Located) (smallest : Located) (rest : List Located) (h : e.quantity = .spread)
    (covered : coveredValues e r = before ++ largest :: after) (below : ∀ v ∈ before, v.value < largest.value)
    (upTo : ∀ v ∈ after, v.value ≤ largest.value) (covered' : coveredValues e r = front ++ smallest :: rest)
    (above : ∀ v ∈ front, smallest.value < v.value) (downTo : ∀ v ∈ rest, smallest.value ≤ v.value)
    (apart : e.high < largest.value - smallest.value) : judgeRound e r =
      (.violate, some (.spread (largest.value - smallest.value) largest smallest)) := by
  have hl := largestOf_append before after largest below upTo
  have hs := smallestOf_append front rest smallest above downTo
  rw [← covered] at hl
  rw [← covered'] at hs
  exact (judgeRound_spread_of_extremes e r h hl hs).trans (if_pos apart)

theorem judgeWord_outside (e : LimitEntry) (value : BitVec 24) (h : value.toInt < e.low ∨ e.high < value.toInt) :
    judgeWord e value = (.violate, some (.current value)) := if_pos ((outside_eq_true_iff e _).2 h)

theorem judgeWord_inside (e : LimitEntry) (value : BitVec 24) (h : e.low ≤ value.toInt ∧ value.toInt ≤ e.high) :
    judgeWord e value = (.within, none) := if_neg (by rw [(outside_eq_false_iff e _).2 h]; exact Bool.false_ne_true)

/-! ### What a verdict does (R67, R71) -/

/-- R67: the verdicts that do not go on with a run, and the verdict that does, below the persistence and at it. -/
theorem runAfter_cases (count persistence : Nat) :
    (count + 1 < persistence →
      runAfter .normal count persistence .violate = (.normal, count + 1, none) ∧
      runAfter .tripped count persistence .within = (.tripped, count + 1, none)) ∧
    (persistence ≤ count + 1 →
      runAfter .normal count persistence .violate = (.tripped, 0, some .trip) ∧
      runAfter .tripped count persistence .within = (.normal, 0, some .release)) ∧
    runAfter .normal count persistence .within = (.normal, 0, none) ∧
    runAfter .tripped count persistence .violate = (.tripped, 0, none) ∧
    ∀ r, runAfter r count persistence .unknown = (r, count, none) :=
  ⟨fun short => ⟨if_neg (Nat.not_le.2 short), if_neg (Nat.not_le.2 short)⟩, fun long => ⟨if_pos long, if_pos long⟩, rfl, rfl,
    fun r => by cases r <;> rfl⟩

section Verdict

variable (s : State) (n : Nat) (e : LimitEntry) (f : Finding) (source : LimitSource) (closing : Option RoundNumber)
  (run : LimitRun) (state : RunState) (count : Nat)

theorem State.limitRun_of_getElem? (h : s.limits[n]? = some run) : s.limits.getD n .normal = run := by
  rw [List.getD_eq_getElem?_getD, h]
  rfl

theorem State.applyVerdict_unchanged (h : s.limits[n]? = some run)
    (after : runAfter run.state run.count e.persistence f.1 = (state, count, none)) :
    s.applyVerdict n e f source closing = { s with limits := s.limits.set n ⟨state, count, run.lastChange⟩ } := by
  unfold State.applyVerdict
  rw [s.limitRun_of_getElem? n run h]
  dsimp only
  rw [after]

/-- R71: TRIP is noticed before the action fires. -/
theorem State.applyVerdict_trip (h : s.limits[n]? = some run)
    (after : runAfter run.state run.count e.persistence f.1 = (state, count, some .trip)) :
    s.applyVerdict n e f source closing =
      ((({ s with limits := s.limits.set n ⟨state, count, some ⟨.trip, source, s.workingEpoch⟩⟩ } : State).notifyAwake
        (.trip n e.quantity source (s.stepOf source) s.workingEpoch f.2)).fire e.action (.limit n) closing) := by
  unfold State.applyVerdict
  rw [s.limitRun_of_getElem? n run h]
  dsimp only
  rw [after]
  rfl

theorem State.applyVerdict_release (h : s.limits[n]? = some run)
    (after : runAfter run.state run.count e.persistence f.1 = (state, count, some .release)) :
    s.applyVerdict n e f source closing =
      ({ s with limits := s.limits.set n ⟨state, count, some ⟨.release, source, s.workingEpoch⟩⟩ } : State).notifyAwake
        (.release n e.quantity source (s.stepOf source) s.workingEpoch) := by
  unfold State.applyVerdict
  rw [s.limitRun_of_getElem? n run h]
  dsimp only
  rw [after]
  rfl

theorem State.changeOf_of_getElem? (verdict : Verdict) (h : s.limits[n]? = some run) :
    s.changeOf n e verdict = (runAfter run.state run.count e.persistence verdict).2.2 := by
  unfold State.changeOf
  rw [s.limitRun_of_getElem? n run h]

end Verdict

/-! ### The walks over the enabled entries (R70, R72) -/

/-- R72: the words an entry applies to. -/
theorem appliesToWord_iff (e : LimitEntry) : appliesToWord e = true ↔ e.quantity = .current ∧ e.awake = true := by
  unfold appliesToWord
  rw [Bool.and_eq_true, beq_iff_eq]

theorem State.limitEntries_eq (s : State) (i : Image) (h : s.image = some i) :
    s.limitEntries = i.limit.zipIdx.filterMap fun x => (readLimit x.1).map fun e => (e, x.2) := by
  unfold State.limitEntries List.reduceOption
  simp only [h, List.filterMap_map, Function.id_comp]

theorem State.limitEntries_none (s : State) (h : s.image = none) : s.limitEntries = [] := by
  unfold State.limitEntries
  rw [h]

theorem State.limitEntries_ascend (s : State) : (s.limitEntries.map Prod.snd).Pairwise (· < ·) := by
  cases h : s.image with
  | none => rw [s.limitEntries_none h]; exact List.Pairwise.nil
  | some i =>
    have indexes : i.limit.zipIdx.Pairwise fun x y => x.2 < y.2 := by
      rw [← List.pairwise_map (f := Prod.snd), List.zipIdx_map_snd]
      exact List.pairwise_lt_range'
    rw [s.limitEntries_eq i h, List.pairwise_map, List.pairwise_filterMap]
    refine indexes.imp fun {x y} ascend p hp q hq => ?_
    obtain ⟨_, _, rfl⟩ := Option.map_eq_some_iff.1 hp
    obtain ⟨_, _, rfl⟩ := Option.map_eq_some_iff.1 hq
    exact ascend

theorem State.mem_limitEntries_iff (s : State) (i : Image) (h : s.image = some i) (n : Nat) (e : LimitEntry)
    (range : n < i.limit.length) : (e, n) ∈ s.limitEntries ↔ i.limitEntry n = some e := by
  have record : i.limitEntry n = readLimit i.limit[n] := by
    unfold Image.limitEntry
    rw [List.getD_eq_getElem _ _ range]
  rw [s.limitEntries_eq i h, record, List.mem_filterMap]
  constructor
  · rintro ⟨x, at_, read⟩
    obtain ⟨e', read', pair⟩ := Option.map_eq_some_iff.1 read
    obtain ⟨rfl, index⟩ := Prod.mk.inj pair
    obtain ⟨_, here⟩ := List.getElem?_eq_some_iff.1 (List.mem_zipIdx_iff_getElem?.1 at_)
    simp only [index] at here
    rw [here, read']
  · intro read
    exact ⟨(i.limit[n], n), List.mem_zipIdx_iff_getElem?.2 (List.getElem?_eq_getElem range), by simp only [read, Option.map_some]⟩

/-- R70: an entry of the walk over the round `n`, by whether it judges the round. -/
theorem evaluateEntry_eq (r : RoundRecord) (n : RoundNumber) (number : r.number = n) (acc : State × List VerdictItem)
    (x : LimitEntry × Nat) : evaluateEntry r acc x = if x.1.quantity = .current ∨ appliesToRound x.1 r = false then acc
      else (acc.1.applyVerdict x.2 x.1 (judgeRound x.1 r) (.round n) (some n),
        if (judgeRound x.1 r).1 = .violate ∨ acc.1.changeOf x.2 x.1 (judgeRound x.1 r).1 ≠ none then
          acc.2 ++ [⟨x.2, (judgeRound x.1 r).1, acc.1.changeOf x.2 x.1 (judgeRound x.1 r).1⟩]
        else acc.2) := by
  unfold evaluateEntry
  by_cases passes : x.1.quantity = .current ∨ appliesToRound x.1 r = false
  · rw [if_pos passes, if_neg]
    rcases passes with q | q <;> rw [q] <;> simp
  · obtain ⟨quantity, applies⟩ := not_or.1 passes
    rw [if_neg passes, if_pos (by simpa using And.intro quantity applies), number]
    dsimp only
    by_cases item : (judgeRound x.1 r).1 = .violate ∨ acc.1.changeOf x.2 x.1 (judgeRound x.1 r).1 ≠ none
    · rw [if_pos item, if_pos (by simpa [Option.isSome_iff_ne_none] using item)]
    · rw [if_neg item, if_neg (by simpa [Option.isSome_iff_ne_none] using item), List.append_nil]

/-- R70: the walk over a closing round writes its verdict list. -/
theorem State.evaluateRound_of_record (s : State) (n : RoundNumber) (r : RoundRecord) (done : State × List VerdictItem)
    (h : s.record n = some r) (walk : done = s.limitEntries.foldl (fun acc x =>
      if x.1.quantity = .current ∨ appliesToRound x.1 r = false then acc
      else
        (acc.1.applyVerdict x.2 x.1 (judgeRound x.1 r) (.round n) (some n),
          if (judgeRound x.1 r).1 = .violate ∨ acc.1.changeOf x.2 x.1 (judgeRound x.1 r).1 ≠ none then
            acc.2 ++ [⟨x.2, (judgeRound x.1 r).1, acc.1.changeOf x.2 x.1 (judgeRound x.1 r).1⟩]
          else acc.2)) (s, [])) :
    s.evaluateRound n = done.1.mapRecord n fun r => { r with verdicts := done.2 } := by
  have walked : s.limitEntries.foldl (evaluateEntry r) (s, []) = done :=
    (List.foldl_ext _ _ _ fun acc x _ => evaluateEntry_eq r n (State.record_number h) acc x).trans walk.symm
  unfold State.evaluateRound
  rw [h, ← walked]

/-- R72: the CURRENT entries judge a word in index order. -/
theorem State.evaluateWord_eq (s : State) (value : BitVec 24) (sequence : Byte) (arrival : Instant) :
    s.evaluateWord value sequence arrival = s.limitEntries.foldl (fun t x =>
      if x.1.quantity = .current ∧ x.1.awake = true then
        t.applyVerdict x.2 x.1 (judgeWord x.1 value) (.word sequence arrival) none
      else t) s := by
  refine List.foldl_ext _ _ _ fun t x _ => ?_
  simp only [appliesToWord_iff]

/-- Settles O33: the verdicts and their runs, the covered values, and the walks over a round and over a word. -/
theorem limitsAreJudged : Obligations.LimitsAreJudged := by
  refine ⟨⟨⟨judgeRound_each_iff, fun e r h => (judgeRound_spread_iff e r h).1,
      fun e value => ⟨judgeWord_outside e value, judgeWord_inside e value⟩, runAfter_cases, ?_⟩,
    fun e r => ⟨coveredValues_eq e r, appliesToRound_iff e r, fun before v after h => judgeRound_each_first e r h before v after,
      fun h => (judgeRound_spread_iff e r h).2, judgeRound_spread_first e r⟩, State.evaluateRound_of_record, ?_⟩,
    fun s x n sequence arrival => ⟨rfl, rfl, rfl, rfl, rfl, rfl⟩⟩
  · exact fun s n e f source closing run state count h =>
      ⟨s.applyVerdict_unchanged n e f source closing run state count h,
        s.applyVerdict_trip n e f source closing run state count h,
        s.applyVerdict_release n e f source closing run state count h⟩
  · exact fun v value sequence arrival => ⟨v.evaluateWord_eq value sequence arrival, v.limitEntries_none,
      fun i h => ⟨v.limitEntries_ascend, fun n e => v.mem_limitEntries_iff i h n e⟩,
      fun n run e verdict h => v.changeOf_of_getElem? n e run verdict h⟩

end Sys2Proof.Machine
end

section
/-! SUPPORT. UPDATE_STAGE: its answers in order, and the field checks of the records of the nine tables. -/

namespace Sys2Proof.Machine

/-! ### The first failing field of a record (R158, R186) -/

/-- A field check as its offset with its outcome. -/
def fieldOutcome (c : FieldCheck) : Nat × Bool := (c.offset, c.holds)

/-- The offset of the first field whose check does not hold. -/
def firstFailing (fields : List (Nat × Bool)) : Option Byte := (fields.find? fun f => !f.2).map fun f => BitVec.ofNat 8 f.1

theorem firstFailing_cons_true (offset : Nat) (rest : List (Nat × Bool)) :
    firstFailing ((offset, true) :: rest) = firstFailing rest := rfl

theorem firstFailing_eq_none_iff (fields : List (Nat × Bool)) : firstFailing fields = none ↔ ∀ f ∈ fields, f.2 = true := by
  unfold firstFailing
  simp

theorem failingField_of_wrongLength (table : Byte) (index : Nat) (r : Record) (h : r.length ≠ recordLength table index) :
    failingField table index r = some 0xFF#8 := if_pos h

/-- Of a record that may not be empty every field is tested. -/
theorem failingField_full (table : Byte) (index : Nat) (r : Record) (h : r.length = recordLength table index)
    (full : mayBeEmpty table index = false) :
    failingField table index r = firstFailing ((recordChecks table index r).map fieldOutcome) := by
  rw [failingField_of_length table index r h, full, Bool.false_and, if_neg Bool.false_ne_true]
  rfl

/-- A record that may be empty passes where it is marked so. -/
theorem failingField_emptiable (table : Byte) (index : Nat) (r : Record) (h : r.length = recordLength table index)
    (emptiable : mayBeEmpty table index = true) : failingField table index r =
      if byteAt r 0 = 0 then none else firstFailing ((recordChecks table index r).map fieldOutcome) := by
  rw [failingField_of_length table index r h, emptiable, Bool.true_and]
  simp only [beq_iff_eq]
  rfl

/-! ### The lists of fields (R186) -/

section Fields

variable (index : Nat) (r : Record)

/-- A flag is 0 or 1. -/
theorem flagForm_eq (n : Nat) : flagForm r n = ⟨n, Decidable.decide (byteAt r n ≤ 1)⟩ := by
  simp [flagForm, inRange]

/-- A field of three bytes that is bounded above alone. -/
theorem tripleRange_eq (n high : Nat) : tripleRange r n 0 high = ⟨n, Decidable.decide (field24 r n ≤ high)⟩ := by
  simp [tripleRange, inRange]

theorem failingField_position (position : index < 32) (h : r.length = 3) : failingField 3#8 index r =
    if byteAt r 0 = 0 then none else firstFailing ((positionChecks r).map fieldOutcome) := by
  have checks : recordChecks 3#8 index r = positionChecks r := if_pos position
  rw [failingField_emptiable 3#8 index r (h.trans (if_pos position).symm) (by simp [mayBeEmpty, position]), checks]

theorem failingField_plan (plan : 32 ≤ index) (h : r.length = 2) :
    failingField 3#8 index r = firstFailing ((planChecks r).map fieldOutcome) := by
  have checks : recordChecks 3#8 index r = planChecks r := if_neg (Nat.not_lt.2 plan)
  rw [failingField_full 3#8 index r (h.trans (if_neg (Nat.not_lt.2 plan)).symm) (by simp [mayBeEmpty, plan]), checks]

theorem failingField_channel (channel : index < 4) (h : r.length = 9) :
    failingField 6#8 index r = firstFailing ((channelChecks r).map fieldOutcome) := by
  have checks : recordChecks 6#8 index r = channelChecks r := if_pos channel
  rw [failingField_full 6#8 index r (h.trans (if_pos channel).symm) rfl, checks]

theorem failingField_shared (shared : 4 ≤ index) (h : r.length = 23) :
    failingField 6#8 index r = firstFailing ((sharedChecks r).map fieldOutcome) := by
  have checks : recordChecks 6#8 index r = sharedChecks r := if_neg (Nat.not_lt.2 shared)
  rw [failingField_full 6#8 index r (h.trans (if_neg (Nat.not_lt.2 shared)).symm) rfl, checks]

end Fields

/-- R186: the fields of a SCHEDULE record that is not marked empty. -/
theorem failingField_schedule (index : Nat) (r : Record) (h : r.length = 6) : failingField 1#8 index r =
    if byteAt r 0 = 0 then none else firstFailing [
      (0, Decidable.decide (1 ≤ byteAt r 0) && Decidable.decide (byteAt r 0 ≤ 2)),
      (1, Decidable.decide (1 ≤ field16 r 1) && Decidable.decide (field16 r 1 ≤ 2000)),
      (3, Decidable.decide (1 ≤ byteAt r 3) && Decidable.decide (byteAt r 3 ≤ 3)),
      (4, Decidable.decide (1 ≤ byteAt r 4) && Decidable.decide (byteAt r 4 ≤ 3)),
      (5, Decidable.decide (byteAt r 5 ≤ 1))] := by
  rw [failingField_emptiable 1#8 index r h rfl]
  simp only [recordChecks, scheduleChecks, flagForm_eq]
  rfl

section Schedule

variable (index : Nat) (a b c d e f : Byte)

theorem failingField_schedule_full (h : a ≠ 0#8) : failingField 1#8 index [a, b, c, d, e, f] = firstFailing [
    (0, Decidable.decide (1 ≤ a.toNat) && Decidable.decide (a.toNat ≤ 2)),
    (1, Decidable.decide (1 ≤ b.toNat * 256 + c.toNat) && Decidable.decide (b.toNat * 256 + c.toNat ≤ 2000)),
    (3, Decidable.decide (1 ≤ d.toNat) && Decidable.decide (d.toNat ≤ 3)),
    (4, Decidable.decide (1 ≤ e.toNat) && Decidable.decide (e.toNat ≤ 3)), (5, Decidable.decide (f.toNat ≤ 1))] :=
  (failingField_schedule index _ rfl).trans (if_neg fun zero => h (BitVec.eq_of_toNat_eq zero))

theorem failingField_schedule_empty (h : a = 0#8) : failingField 1#8 index [a, b, c, d, e, f] = none :=
  (failingField_schedule index _ rfl).trans (if_pos (congrArg BitVec.toNat h))

theorem failingField_schedule_none (passes : failingField 1#8 index [a, b, c, d, e, f] = none) (h : a ≠ 0#8) :
    a.toNat ≤ 2 ∧ 1 ≤ b.toNat * 256 + c.toNat ∧ b.toNat * 256 + c.toNat ≤ 2000 ∧ 1 ≤ d.toNat ∧ d.toNat ≤ 3 ∧
      1 ≤ e.toNat ∧ e.toNat ≤ 3 ∧ f.toNat ≤ 1 := by
  rw [failingField_schedule_full index a b c d e f h, firstFailing_eq_none_iff] at passes
  simp only [List.forall_mem_cons, Bool.and_eq_true, decide_eq_true_eq] at passes
  obtain ⟨⟨_, kind⟩, ⟨width, width'⟩, ⟨chains, chains'⟩, ⟨sample, sample'⟩, report, _⟩ := passes
  exact ⟨kind, width, width', chains, chains', sample, sample', report⟩

theorem failingField_schedule_kind (h : 2 < a.toNat) : failingField 1#8 index [a, b, c, d, e, f] = some 0#8 := by
  have full : a ≠ 0#8 := fun zero => by rw [zero] at h; exact absurd h (by decide)
  rw [failingField_schedule_full index a b c d e f full, decide_eq_false (Nat.not_le.2 h), Bool.and_false]
  rfl

theorem failingField_schedule_width (kind : a = 1#8 ∨ a = 2#8) (h : 2000 < b.toNat * 256 + c.toNat) :
    failingField 1#8 index [a, b, c, d, e, f] = some 1#8 := by
  have full : a ≠ 0#8 := by rcases kind with rfl | rfl <;> decide
  have inKind : (Decidable.decide (1 ≤ a.toNat) && Decidable.decide (a.toNat ≤ 2)) = true := by
    rcases kind with rfl | rfl <;> rfl
  rw [failingField_schedule_full index a b c d e f full, inKind, firstFailing_cons_true, decide_eq_false (Nat.not_le.2 h),
    Bool.and_false]
  rfl

end Schedule

/-- R186: a CAPTURE record. -/
theorem failingField_capture (p q : Byte) : failingField 7#8 0 [p, q] =
    firstFailing [(0, Decidable.decide (p.toNat ≤ 4)), (1, Decidable.decide (q.toNat ≤ 4))] := by
  rw [failingField_full 7#8 0 [p, q] rfl rfl]
  simp [recordChecks, captureChecks, byteRange, fieldOutcome, inRange, byteAt]

/-! ### UPDATE_STAGE by its answers (R158) -/

section Stage

variable (s : State) (tag table index : Byte) (record : Record)

/-- R158: the idle expiry moves to 10 s on. -/
def State.idleRestarted : State := { s with update := { s.update with idleExpiry := some (s.time + 10000000#32) } }

/-- R158: an image takes the place of the staged one, with the idle expiry moved on. -/
def State.stagedAs (staged : Image) : State := s.idleRestarted.setUpdate fun u => { u with staging := some staged }

theorem State.requestStage_locked (latch : s.update.latch = true) :
    s.requestStage tag table index record = s.reply tag .locked .none := if_pos latch

theorem State.requestStage_busy (latch : s.update.latch = false)
    (state : s.update.state = .validating ∨ s.update.state = .writing ∨ s.update.state = .verifying) :
    s.requestStage tag table index record = s.reply tag .busy .none := by
  unfold State.requestStage
  rw [latch]
  rcases state with state | state | state <;> rw [state] <;> rfl

theorem State.requestStage_closed (latch : s.update.latch = false)
    (state : s.update.state = .closed ∨ s.update.state = .applyPending) :
    s.requestStage tag table index record = s.reply tag .refusedState .none := by
  unfold State.requestStage
  rw [latch]
  rcases state with state | state <;> rw [state] <;> rfl

section Opened

variable (latch : s.update.latch = false) (state : s.update.state = .opened)
include latch state

theorem State.requestStage_noTable (outside : recordCount table ≤ index.toNat) :
    s.requestStage tag table index record = s.idleRestarted.refuse tag .badArgument .table := by
  unfold State.requestStage recordExists
  rw [latch, state, decide_eq_false (Nat.not_lt.2 outside)]
  rfl

theorem State.requestStage_badField (inside : index.toNat < recordCount table) (offset : Byte)
    (fails : failingField table index.toNat record = some offset) :
    s.requestStage tag table index record = s.idleRestarted.refuse tag .badArgument (.field offset) := by
  unfold State.requestStage recordExists
  rw [latch, state, decide_eq_true inside, fails]
  rfl

theorem State.requestStage_staged (inside : index.toNat < recordCount table)
    (passes : failingField table index.toNat record = none) (staged : Image) (staging : s.update.staging = some staged) :
    s.requestStage tag table index record =
      (s.stagedAs (staged.withRecord table index record)).reply tag .done (.record (staged.recordAt table index)) := by
  have staged_eq : s.staged = staged := by
    unfold State.staged
    rw [staging]
    rfl
  unfold State.requestStage recordExists
  rw [latch, state, decide_eq_true inside, passes, ← staged_eq]
  rfl

end Opened

end Stage

/-- R158: the answers to UPDATE_STAGE in the order of their tests. -/
theorem exec_updateStage (s : State) (tag table index : Byte) (record : Record) (staged : Image) (ready : s.linkReady) :
    (s.update.latch = true → exec (.updateStage tag table index record) s = .next (s.answered tag .locked .none)) ∧
    (s.update.latch = false →
      (s.update.state = .validating ∨ s.update.state = .writing ∨ s.update.state = .verifying →
        exec (.updateStage tag table index record) s = .next (s.answered tag .busy .none)) ∧
      (s.update.state = .closed ∨ s.update.state = .applyPending →
        exec (.updateStage tag table index record) s = .next (s.answered tag .refusedState .none)) ∧
      (s.update.state = .opened → s.update.staging = some staged →
        (recordCount table ≤ index.toNat → exec (.updateStage tag table index record) s =
          .next (s.idleRestarted.answered tag .badArgument (.reason .table))) ∧
        (index.toNat < recordCount table →
          (∀ offset, failingField table index.toNat record = some offset → exec (.updateStage tag table index record) s =
            .next (s.idleRestarted.answered tag .badArgument (.reason (.field offset)))) ∧
          (failingField table index.toNat record = none → exec (.updateStage tag table index record) s =
            .next ((s.stagedAs (staged.withRecord table index record)).answered tag .done
              (.record (staged.recordAt table index))))))) := by
  have exec_eq : ∀ {t : State}, s.taken.requestStage tag table index record = t →
      exec (.updateStage tag table index record) s = .next t := fun h =>
    exec_request_eq (.updateStage tag table index record) s rfl ready h
  have restarted : s.idleRestarted.linkReady := ready
  refine ⟨fun latch => ?_, fun latch => ⟨fun state => ?_, fun state => ?_, fun state staging =>
    ⟨fun outside => ?_, fun inside => ⟨fun offset fails => ?_, fun passes => ?_⟩⟩⟩⟩
  · exact exec_eq ((s.taken.requestStage_locked tag table index record latch).trans (s.taken_reply ready _ _ _))
  · exact exec_eq ((s.taken.requestStage_busy tag table index record latch state).trans (s.taken_reply ready _ _ _))
  · exact exec_eq ((s.taken.requestStage_closed tag table index record latch state).trans (s.taken_reply ready _ _ _))
  · exact exec_eq ((s.taken.requestStage_noTable tag table index record latch state outside).trans
      (s.idleRestarted.taken_refuse restarted _ _ _))
  · exact exec_eq ((s.taken.requestStage_badField tag table index record latch state inside offset fails).trans
      (s.idleRestarted.taken_refuse restarted _ _ _))
  · exact exec_eq ((s.taken.requestStage_staged tag table index record latch state inside passes staged staging).trans
      ((s.stagedAs _).taken_reply ready _ _ _))

/-- Settles O53: the answers to UPDATE_STAGE, the fields of each table, and the record that is replaced and read. -/
theorem updateStageAnswers : Obligations.UpdateStageAnswers := by
  refine ⟨⟨⟨?_, failingField_of_wrongLength, ?_, ?_⟩, ?_, ?_⟩, ?_⟩
  · rintro s _ tag table index record staged ready rfl
    exact exec_updateStage s tag table index record staged ready
  · exact fun index a b c d e f => ⟨failingField_schedule_empty index a b c d e f, failingField_schedule_none index a b c d e f,
      failingField_schedule_kind index a b c d e f, failingField_schedule_width index a b c d e f⟩
  · intro p q
    rw [failingField_capture]
    refine ⟨fun hp hq => ?_, fun hp => ?_, fun hp hq => ?_⟩
    · rw [decide_eq_true hp, decide_eq_true hq]
      rfl
    · rw [decide_eq_false (Nat.not_le.2 hp)]
      rfl
    · rw [decide_eq_true hp, decide_eq_false (Nat.not_le.2 hq)]
      rfl
  · rintro index r _ _ _ _ _ _ _ _ _ _ rfl rfl rfl rfl rfl rfl rfl rfl rfl rfl
    refine ⟨failingField_schedule index r, fun h => ?_, failingField_position index r, failingField_plan index r, fun h => ?_,
      fun h => failingField_full 5#8 index r h rfl, fun channel h => ?_, fun shared h => ?_, fun h => ?_, fun h => ?_⟩
    · rw [failingField_full 2#8 index r h rfl]
      simp only [recordChecks, chainTimingChecks, flagForm_eq]
      rfl
    · rw [failingField_emptiable 4#8 index r h rfl]
      simp only [recordChecks, limitChecks, List.map_append, apply_ite (List.map fieldOutcome), Bool.or_eq_true, beq_iff_eq]
      rfl
    · rw [failingField_channel index r channel h]
      simp only [channelChecks, flagForm_eq]
      rfl
    · rw [failingField_shared index r shared h]
      simp only [sharedChecks, flagForm_eq, tripleRange_eq]
      rfl
    · rw [failingField_full 8#8 index r h rfl]
      simp only [recordChecks, patrolChecks, flagForm_eq]
      rfl
    · rw [failingField_full 9#8 index r h rfl]
      simp only [recordChecks, optionsChecks, flagForm_eq]
      rfl
  · exact fun _ => ⟨rfl, rfl, rfl, rfl, rfl, rfl, rfl, rfl, rfl⟩
  · rintro i table index r _ rfl
    exact ⟨rfl, rfl, rfl, rfl, rfl, rfl, rfl, rfl, rfl, rfl, rfl, rfl, rfl, rfl, rfl, rfl, rfl, rfl, rfl, recordCount_other table⟩

end Sys2Proof.Machine
end

section
/-! SUPPORT. The firing of an action: what each of its effects changes and leaves, and the effects together in whatever order. -/

namespace Sys2Proof.Machine

/-! ### Effects in a free order (entry 3) -/

/-- One effect brings about a property; the others before it keep what it needs, and the others after it keep the property. -/
theorem State.anyOrder_once (s : State) {P Q : State → Prop} {fs rest : List (State → State)} {g : State → State}
    (perm : fs.Perm (g :: rest)) (keepsP : ∀ f ∈ rest, ∀ u, P u → P (f u)) (reaches : ∀ u, P u → Q (g u))
    (keepsQ : ∀ f ∈ rest, ∀ u, Q u → Q (f u)) (start : P { s with free := s.free + fs.length }) : Q (s.anyOrder fs) := by
  obtain ⟨order, order_perm, e⟩ := s.anyOrder_perm fs
  obtain ⟨before, after, rfl⟩ := List.append_of_mem ((order_perm.trans perm).mem_iff.2 List.mem_cons_self)
  have others : ∀ f ∈ before ++ after, f ∈ rest := fun f hf =>
    (List.perm_middle.symm.trans (order_perm.trans perm)).cons_inv.mem_iff.1 hf
  rw [e, order_perm.length_eq, List.foldl_append]
  refine List.foldlRecOn (motive := Q) after _ (reaches _ (List.foldlRecOn (motive := P) before _ start ?_)) ?_
  · exact fun u p f hf => keepsP f (others f (List.mem_append_left _ hf)) u p
  · exact fun u q f hf => keepsQ f (others f (List.mem_append_right _ hf)) u q

/-- One effect brings about a property that every effect keeps. -/
theorem State.anyOrder_reaches (s : State) {P Q : State → Prop} {fs : List (State → State)} {g : State → State} (mem : g ∈ fs)
    (keepsP : ∀ f ∈ fs, ∀ u, P u → P (f u)) (reaches : ∀ u, P u → Q (g u)) (keepsQ : ∀ f ∈ fs, ∀ u, Q u → Q (f u))
    (start : P { s with free := s.free + fs.length }) : Q (s.anyOrder fs) := by
  obtain ⟨before, after, rfl⟩ := List.append_of_mem mem
  have member : ∀ f ∈ before ++ after, f ∈ before ++ g :: after := fun f hf =>
    List.perm_middle.mem_iff.2 (List.mem_cons_of_mem _ hf)
  exact s.anyOrder_once List.perm_middle (fun f hf => keepsP f (member f hf)) reaches (fun f hf => keepsQ f (member f hf)) start

/-- What each effect of a firing keeps. -/
structure FiringKeeps (a : ActionEntry) (cause : Cause) (closing : Option RoundNumber) (P : State → Prop) : Prop where
  opening : ∀ k ∈ a.opens, ∀ u, P u → P (u.openRequest k (.action cause) closing)
  told : a.opens ≠ [] → ∀ u, P u → P (u.actionOpening cause closing)
  inhibit : a.inhibit = true → ∀ u, P u → P (u.inhibitWith cause)
  capture : a.capture = true → ∀ u, P u → P (u.requestCapture (.action cause) closing)
  wake : a.wakeHost = true → ∀ u, P u → P (u.latch .breach)

theorem FiringKeeps.effect {a : ActionEntry} {cause : Cause} {closing : Option RoundNumber} {P : State → Prop}
    (h : FiringKeeps a cause closing P) : ∀ f ∈ firingEffects a cause closing, ∀ u, P u → P (f u) := by
  intro f hf
  simp only [firingEffects, List.mem_append, List.mem_map, List.isEmpty_iff, List.mem_ite_nil_left, List.mem_ite_nil_right,
    List.mem_singleton] at hf
  rcases hf with (((⟨k, hk, rfl⟩ | ⟨opens, rfl⟩) | ⟨inhibit, rfl⟩) | ⟨capture, rfl⟩) | ⟨wake, rfl⟩
  · exact h.opening k hk
  · exact h.told opens
  · exact h.inhibit inhibit
  · exact h.capture capture
  · exact h.wake wake

/-! ### What each effect leaves as it is -/

/-- What no effect of a firing changes. -/
def State.unfired (s : State) :
    Instant × Cursor × PerChain ChainPort × CurrentStream × List LimitRun × UpdateEngine × ImageStore × Option Working :=
  (s.time, s.cursor, s.ports, s.stream, s.limits, s.update, s.store, s.working)

/-- A channel with its drive. -/
def State.contact (s : State) (k : ChannelId) : Channel × Drive := (s.channel k, s.drives.get k)

/-- A channel that has been opened. -/
def Dropped (c : Channel × Drive) : Prop := c.1.state = .dropout ∧ c.2 = .off

section Frames

variable (s : State) (k : ChannelId) (by_ : Requester) (cause : Cause) (closing : Option RoundNumber)

/-- R105, R113: entering DROPOUT changes the channel, its drive and the window. -/
theorem State.enterDropout_frame (f : Channel → Channel) : ∃ c w, c.state = .dropout ∧ s.enterDropout k f =
    { s with channels := s.channels.set k c, drives := s.drives.set k .off, window := w } := by
  obtain ⟨w, e⟩ := ((s.setChannel k { f (s.channel k) with
    state := .dropout, phaseExpiry := some (s.dropoutEnd k) }).setDrive k .off).syncWindow_frame
  exact ⟨_, w, rfl, e⟩

/-- R105, R112, R113: an open request that acts changes the channel and its drive, the window, the outbound queue, and, under
load, the captures with the ring's holder counts. -/
theorem State.openRequest_frame (h : (s.channel k).state.isClosed = true) : ∃ c w l captures ring, c.state = .dropout ∧
    s.openRequest k by_ closing = { s with
      channels := s.channels.set k c, drives := s.drives.set k .off, window := w, link := l, captures := captures
      ring := ring } := by
  delta State.openRequest
  extract_lets _ load opening dropping noticed
  obtain ⟨c, w, state, dropped⟩ : ∃ c w, c.state = .dropout ∧ dropping = { s with
    channels := s.channels.set k c, drives := s.drives.set k .off, window := w } := s.enterDropout_frame k _
  obtain ⟨l, notice⟩ : ∃ l, noticed = { dropping with link := l } := dropping.notifyAwake_frame _
  rw [if_pos h]
  split
  · obtain ⟨l, captures, ring, request⟩ := noticed.requestCapture_frame (.underLoad k) closing
    rw [request, notice, dropped]
    exact ⟨c, w, l, captures, ring, state, rfl⟩
  · rw [notice, dropped]
    exact ⟨c, w, l, s.captures, s.ring, state, rfl⟩

/-- What the change of a closed channel, its drive and those blocks keeps, an open request keeps. -/
theorem State.openRequest_keeps {P : State → Prop} (p : P s) (changed : (s.channel k).state.isClosed = true →
    ∀ c w l captures ring, c.state = .dropout → P { s with
      channels := s.channels.set k c, drives := s.drives.set k .off, window := w, link := l, captures := captures
      ring := ring }) :
    P (s.openRequest k by_ closing) := by
  cases h : (s.channel k).state.isClosed with
  | false => rwa [s.openRequest_open k by_ closing h]
  | true =>
    obtain ⟨c, w, l, captures, ring, state, e⟩ := s.openRequest_frame k by_ closing h
    exact e ▸ changed h c w l captures ring state

theorem State.openRequest_unfired : (s.openRequest k by_ closing).unfired = s.unfired :=
  s.openRequest_keeps k by_ closing (P := fun t => t.unfired = s.unfired) rfl fun _ _ _ _ _ _ _ => rfl
theorem State.openRequest_sequencer : (s.openRequest k by_ closing).sequencer = s.sequencer :=
  s.openRequest_keeps k by_ closing (P := fun t => t.sequencer = s.sequencer) rfl fun _ _ _ _ _ _ _ => rfl
theorem State.openRequest_inhibit : (s.openRequest k by_ closing).inhibit = s.inhibit :=
  s.openRequest_keeps k by_ closing (P := fun t => t.inhibit = s.inhibit) rfl fun _ _ _ _ _ _ _ => rfl
theorem State.openRequest_sleep : (s.openRequest k by_ closing).sleep = s.sleep :=
  s.openRequest_keeps k by_ closing (P := fun t => t.sleep = s.sleep) rfl fun _ _ _ _ _ _ _ => rfl

/-! ### A channel with its drive (R105) -/

theorem State.openRequest_contact_keeps {C : Channel × Drive → Prop} (j : ChannelId)
    (opens : ∀ c d, C c → c.1.state.isClosed = true → Dropped d → C d) (p : C (s.contact j)) :
    C ((s.openRequest k by_ closing).contact j) := by
  refine s.openRequest_keeps k by_ closing (P := fun t => C (t.contact j)) p fun h c w l captures ring state => ?_
  unfold State.contact State.channel
  simp only [PerChannel.get_set]
  by_cases same : j = k
  · subst same
    simp only [if_true]
    exact opens _ _ p h ⟨state, rfl⟩
  · simp only [if_neg same]
    exact p

theorem State.openRequest_contact_other (j : ChannelId) (other : j ≠ k) :
    (s.openRequest k by_ closing).contact j = s.contact j := by
  refine s.openRequest_keeps k by_ closing (P := fun t => t.contact j = s.contact j) rfl fun h c w l captures ring state => ?_
  unfold State.contact State.channel
  simp only [PerChannel.get_set, if_neg other]

/-- R105: a channel that is closed is in DROPOUT after an open request, its drive off. -/
theorem State.openRequest_contact_dropped (h : (s.channel k).state.isClosed = true) :
    Dropped ((s.openRequest k by_ closing).contact k) := by
  obtain ⟨c, w, l, captures, ring, state, e⟩ := s.openRequest_frame k by_ closing h
  rw [e]
  unfold State.contact State.channel
  simp only [PerChannel.get_set, if_true]
  exact ⟨state, rfl⟩

/-! ### The Sequencer is told of the opening (R124) -/

/-- R124: TRIPPED with a cause, the disconnection pending or not. -/
def TrippedBy (cause : Cause) (pending : Bool) (q : Sequencer) : Prop :=
  q.state = .tripped ∧ q.tripCause = some cause ∧ q.disconnectPending = pending

/-- R128: the notice of an outcome records it. -/
theorem State.noticeSequence_frame (o : SeqOutcome) (left : Option SeqState) (precharge : Option Precharge) (trip : Option Cause)
    (words : Option Nat) (current : Option CurrentReport) : ∃ l, s.noticeSequence o left precharge trip words current =
      { s with sequencer := { s.sequencer with lastOutcome := some (o, s.time) }, link := l } := State.notifyAwake_frame _ _

/-- What holds with the Sequencer TRIPPED, and is kept by the notice of its outcome and by the openings, holds after the entry to
TRIPPED. -/
theorem State.enterTripped_keeps {P : State → Prop}
    (tripped : ∀ q n, TrippedBy cause (s.sequencer.state == .disconnecting) q → P { s with sequencer := q, free := n })
    (notice : ∀ u o l, P u → P { u with sequencer := { u.sequencer with lastOutcome := o }, link := l })
    (opening : s.sequencer.state = .disconnecting → ∀ j u, P u → P (u.openRequest j .sequencer closing)) :
    P (s.enterTripped cause closing) := by
  refine State.anyOrder_keeps _ _ (fun f hf u p => ?_) (tripped _ _ ⟨rfl, rfl, rfl⟩)
  rcases List.mem_cons.1 hf with rfl | hf
  · obtain ⟨l, e⟩ := u.noticeSequence_frame .tripped (some s.sequencer.state) none (some cause) none none
    dsimp only
    rw [e]
    exact notice u _ l p
  · obtain ⟨j, hj, rfl⟩ := List.mem_map.1 hf
    refine opening ?_ j u p
    by_contra connected
    rw [if_neg (by simpa using connected)] at hj
    exact List.not_mem_nil hj

theorem State.actionOpening_kept (h : s.sequencer.state = .idle ∨ s.sequencer.state = .tripped) :
    s.actionOpening cause closing = s := by
  unfold State.actionOpening
  rcases h with h | h <;> rw [h]

theorem State.actionOpening_trips (idle : s.sequencer.state ≠ .idle) (tripped : s.sequencer.state ≠ .tripped) :
    s.actionOpening cause closing = s.enterTripped cause closing := by
  unfold State.actionOpening
  split
  · exact absurd ‹_› idle
  · exact absurd ‹_› tripped
  all_goals rfl

/-- What does not depend on the Sequencer and the outbound queue, and the openings keep, is kept when the Sequencer is told. -/
theorem State.actionOpening_keeps {P : State → Prop} (p : P s) (insensitive : ∀ u q l n, P u → P { u with
      sequencer := q, link := l, free := n })
    (opening : s.sequencer.state = .disconnecting → ∀ j u, P u → P (u.openRequest j .sequencer closing)) :
    P (s.actionOpening cause closing) := by
  by_cases kept : s.sequencer.state = .idle ∨ s.sequencer.state = .tripped
  · rwa [s.actionOpening_kept cause closing kept]
  · obtain ⟨idle, tripped⟩ := not_or.1 kept
    rw [s.actionOpening_trips cause closing idle tripped]
    exact s.enterTripped_keeps cause closing (fun q n _ => insensitive s q s.link n p)
      (fun u o l p => insensitive u _ l u.free p) opening

theorem State.actionOpening_unfired : (s.actionOpening cause closing).unfired = s.unfired :=
  s.actionOpening_keeps cause closing (P := fun t => t.unfired = s.unfired) rfl (fun _ _ _ _ p => p)
    fun _ j u p => (u.openRequest_unfired j _ closing).trans p
theorem State.actionOpening_inhibit : (s.actionOpening cause closing).inhibit = s.inhibit :=
  s.actionOpening_keeps cause closing (P := fun t => t.inhibit = s.inhibit) rfl (fun _ _ _ _ p => p)
    fun _ j u p => (u.openRequest_inhibit j _ closing).trans p
theorem State.actionOpening_sleep : (s.actionOpening cause closing).sleep = s.sleep :=
  s.actionOpening_keeps cause closing (P := fun t => t.sleep = s.sleep) rfl (fun _ _ _ _ p => p)
    fun _ j u p => (u.openRequest_sleep j _ closing).trans p

theorem State.actionOpening_contact_keeps {C : Channel × Drive → Prop} (j : ChannelId)
    (opens : ∀ c d, C c → c.1.state.isClosed = true → Dropped d → C d) (p : C (s.contact j)) :
    C ((s.actionOpening cause closing).contact j) :=
  s.actionOpening_keeps cause closing (P := fun t => C (t.contact j)) p (fun _ _ _ _ p => p)
    fun _ i u p => u.openRequest_contact_keeps i _ closing j opens p

/-- R124: the opening itself opens no further channel where the Sequencer was not DISCONNECTING. -/
theorem State.actionOpening_contact (j : ChannelId) (h : s.sequencer.state ≠ .disconnecting) :
    (s.actionOpening cause closing).contact j = s.contact j :=
  s.actionOpening_keeps cause closing (P := fun t => t.contact j = s.contact j) rfl (fun _ _ _ _ p => p)
    fun disconnecting => absurd disconnecting h

/-- R124: outside IDLE and TRIPPED the Sequencer becomes TRIPPED with the cause. -/
theorem State.actionOpening_trippedBy (idle : s.sequencer.state ≠ .idle) (tripped : s.sequencer.state ≠ .tripped) :
    TrippedBy cause (s.sequencer.state == .disconnecting) (s.actionOpening cause closing).sequencer := by
  rw [s.actionOpening_trips cause closing idle tripped]
  exact s.enterTripped_keeps cause closing (P := fun t => TrippedBy cause (s.sequencer.state == .disconnecting) t.sequencer)
    (fun _ _ h => h) (fun _ _ _ p => p) fun _ j u p => (u.openRequest_sequencer j _ closing).symm ▸ p

theorem State.actionOpening_ne_disconnecting (h : s.sequencer.state ≠ .disconnecting) :
    (s.actionOpening cause closing).sequencer.state ≠ .disconnecting := by
  by_cases kept : s.sequencer.state = .idle ∨ s.sequencer.state = .tripped
  · rwa [s.actionOpening_kept cause closing kept]
  · obtain ⟨idle, tripped⟩ := not_or.1 kept
    obtain ⟨state, _⟩ := s.actionOpening_trippedBy cause closing idle tripped
    rw [state]
    nofun

/-! ### The reclose inhibit set (R76) -/

theorem State.inhibitWith_unfired : (s.inhibitWith cause).unfired = s.unfired := by
  unfold State.inhibitWith
  split <;> rfl
theorem State.inhibitWith_sequencer : (s.inhibitWith cause).sequencer = s.sequencer := by
  unfold State.inhibitWith
  split <;> rfl
theorem State.inhibitWith_sleep : (s.inhibitWith cause).sleep = s.sleep := by
  unfold State.inhibitWith
  split <;> rfl
theorem State.inhibitWith_captures : (s.inhibitWith cause).captures = s.captures := by
  unfold State.inhibitWith
  split <;> rfl
theorem State.inhibitWith_contact (j : ChannelId) : (s.inhibitWith cause).contact j = s.contact j := by
  unfold State.inhibitWith
  split <;> rfl

theorem State.inhibitWith_inhibit :
    (s.inhibitWith cause).inhibit = if cause ∈ s.inhibit then s.inhibit else s.inhibit ++ [cause] := by
  unfold State.inhibitWith
  split <;> rfl

/-! ### The capture that is requested (R78, R89) -/

section Capture

variable (x : CaptureCause)

theorem State.requestCapture_unfired : (s.requestCapture x closing).unfired = s.unfired := by
  obtain ⟨l, captures, ring, e⟩ := s.requestCapture_frame x closing
  rw [e]
  rfl
theorem State.requestCapture_sequencer : (s.requestCapture x closing).sequencer = s.sequencer := by
  obtain ⟨l, captures, ring, e⟩ := s.requestCapture_frame x closing
  rw [e]
theorem State.requestCapture_inhibit : (s.requestCapture x closing).inhibit = s.inhibit := by
  obtain ⟨l, captures, ring, e⟩ := s.requestCapture_frame x closing
  rw [e]
theorem State.requestCapture_sleep : (s.requestCapture x closing).sleep = s.sleep := by
  obtain ⟨l, captures, ring, e⟩ := s.requestCapture_frame x closing
  rw [e]
theorem State.requestCapture_contact (j : ChannelId) : (s.requestCapture x closing).contact j = s.contact j := by
  obtain ⟨l, captures, ring, e⟩ := s.requestCapture_frame x closing
  rw [e]
  rfl

theorem State.noticeDone_captures (c : Capture) : (s.noticeDone c).captures = s.captures := by
  unfold State.noticeDone
  split
  · obtain ⟨l, e⟩ := s.notifyAwake_frame (.captureDone c.id c.cause c.anchor c.countHeld)
    rw [e]
  · rfl

/-- R89: where fewer than three captures stand, one joins them. -/
theorem State.requestCapture_joins (h : s.captures.list.length < 3) :
    ∃ c, (s.requestCapture x closing).captures.list = s.captures.list ++ [c] ∧ c.cause = x ∧ c.instant = s.time := by
  refine ⟨s.newCapture x closing, ?_, rfl, rfl⟩
  unfold State.requestCapture
  rw [if_pos h]
  exact congrArg CaptureUnit.list ((s.addCapture (s.newCapture x closing)).noticeDone_captures (s.newCapture x closing))

/-- R89: where three captures stand, the refusal is recorded. -/
theorem State.requestCapture_refused (h : 3 ≤ s.captures.list.length) :
    (s.requestCapture x closing).captures = { s.captures with lastRefusal := some (x, s.time) } := by
  unfold State.requestCapture
  rw [if_neg (Nat.not_lt.2 h)]
  obtain ⟨l, e⟩ := (s.recordRefusal x).notifyAwake_frame (.captureRefused x)
  rw [e]
  rfl

end Capture

/-! ### The wake cause (R77, R147) -/

section Latch

variable (c : WakeCause)

theorem State.latch_unfired : (s.latch c).unfired = s.unfired := by
  unfold State.latch
  split <;> rfl
theorem State.latch_sequencer : (s.latch c).sequencer = s.sequencer := by
  unfold State.latch
  split <;> rfl
theorem State.latch_inhibit : (s.latch c).inhibit = s.inhibit := by
  unfold State.latch
  split <;> rfl
theorem State.latch_captures : (s.latch c).captures = s.captures := by
  unfold State.latch
  split <;> rfl
theorem State.latch_contact (j : ChannelId) : (s.latch c).contact j = s.contact j := by
  unfold State.latch
  split <;> rfl

theorem State.latch_awake (h : s.sleep.op = .run ∨ s.sleep.op = .unconfigured) : s.latch c = s := by
  unfold State.latch
  rcases h with h | h <;> rw [h]

/-- A sleep state with a set of latched causes. -/
def LatchedAsleep (w : WakeSet) (x : SleepController) : Prop := x.latched = w ∧ x.op ≠ .run ∧ x.op ≠ .unconfigured

/-- R147: in a sleep state the cause joins the latched set, and the bridge stays in a sleep state. -/
theorem State.latch_asleep (w : WakeSet) (h : LatchedAsleep w s.sleep) : LatchedAsleep (w.add c) (s.latch c).sleep := by
  obtain ⟨rfl, run, unconfigured⟩ := h
  unfold State.latch
  split
  · exact absurd ‹_› run
  · exact absurd ‹_› unconfigured
  · exact ⟨rfl, nofun, nofun⟩
  all_goals exact ⟨rfl, run, unconfigured⟩

end Latch

end Frames

/-! ### The effects of a firing together (R73, R75) -/

section Firing

variable (s : State) (a : ActionEntry) (cause : Cause) (closing : Option RoundNumber)

/-- R75: the state after the effects of an action entry, in whatever order. -/
def State.firedBy : State := s.anyOrder (firingEffects a cause closing)

theorem State.firedBy_unfired : (s.firedBy a cause closing).unfired = s.unfired :=
  s.anyOrder_keeps (P := fun t => t.unfired = s.unfired) _ (FiringKeeps.effect {
    opening := fun k _ u p => (u.openRequest_unfired k _ closing).trans p
    told := fun _ u p => (u.actionOpening_unfired cause closing).trans p
    inhibit := fun _ u p => (u.inhibitWith_unfired cause).trans p
    capture := fun _ u p => (u.requestCapture_unfired closing _).trans p
    wake := fun _ u p => (u.latch_unfired _).trans p }) rfl

/-! #### The channels -/

theorem firingKeeps_contact {C : Channel × Drive → Prop} (k : ChannelId)
    (opens : ∀ c d, C c → c.1.state.isClosed = true → Dropped d → C d) :
    FiringKeeps a cause closing fun t => C (t.contact k) where
  opening j _ u p := u.openRequest_contact_keeps j _ closing k opens p
  told _ u p := u.actionOpening_contact_keeps cause closing k opens p
  inhibit _ u p := (u.inhibitWith_contact cause k).symm ▸ p
  capture _ u p := (u.requestCapture_contact closing _ k).symm ▸ p
  wake _ u p := (u.latch_contact _ k).symm ▸ p

/-- R75: a channel of the mask that is closed goes to DROPOUT, its drive off. -/
theorem State.firedBy_contact_dropped (k : ChannelId) (mem : k ∈ a.opens) (h : (s.channel k).state.isClosed = true) :
    Dropped ((s.firedBy a cause closing).contact k) := by
  have effect : (fun t : State => t.openRequest k (.action cause) closing) ∈ firingEffects a cause closing := by
    simp only [firingEffects, List.append_assoc]
    exact List.mem_append_left _ (List.mem_map_of_mem mem)
  refine s.anyOrder_reaches (P := fun t => (t.contact k).1.state.isClosed = true ∨ Dropped (t.contact k))
    (Q := fun t => Dropped (t.contact k)) effect
    (firingKeeps_contact a cause closing (C := fun c => c.1.state.isClosed = true ∨ Dropped c) k fun _ _ _ _ d => .inr d).effect
    (fun u p => ?_) (firingKeeps_contact a cause closing k fun _ _ _ _ d => d).effect (.inl h)
  rcases p with closed | dropped
  · exact u.openRequest_contact_dropped k _ closing closed
  · exact u.openRequest_contact_keeps k _ closing k (fun _ _ _ _ d => d) dropped

/-- A channel that is not closed stays as it is. -/
theorem State.firedBy_contact_open (k : ChannelId) (h : (s.channel k).state.isClosed = false) :
    (s.firedBy a cause closing).contact k = s.contact k :=
  s.anyOrder_keeps (P := fun t => t.contact k = s.contact k) _
    (firingKeeps_contact a cause closing (C := fun c => c = s.contact k) k fun c _ same closed _ => by
      rw [same] at closed
      exact absurd (h.symm.trans closed) Bool.false_ne_true).effect rfl

/-- R75, R124: a channel outside the mask stays as it is, but where the Sequencer is DISCONNECTING. -/
theorem State.firedBy_contact_other (k : ChannelId) (h : s.sequencer.state ≠ .disconnecting) (other : k ∉ a.opens) :
    (s.firedBy a cause closing).contact k = s.contact k := by
  have keeps : FiringKeeps a cause closing fun t => t.contact k = s.contact k ∧ t.sequencer.state ≠ .disconnecting := {
    opening := fun j mem u ⟨p, q⟩ => ⟨(u.openRequest_contact_other j _ closing k fun e => other (e ▸ mem)).trans p,
      (u.openRequest_sequencer j _ closing).symm ▸ q⟩
    told := fun _ u ⟨p, q⟩ =>
      ⟨(u.actionOpening_contact cause closing k q).trans p, u.actionOpening_ne_disconnecting cause closing q⟩
    inhibit := fun _ u ⟨p, q⟩ => ⟨(u.inhibitWith_contact cause k).trans p, (u.inhibitWith_sequencer cause).symm ▸ q⟩
    capture := fun _ u ⟨p, q⟩ => ⟨(u.requestCapture_contact closing _ k).trans p, (u.requestCapture_sequencer closing _).symm ▸ q⟩
    wake := fun _ u ⟨p, q⟩ => ⟨(u.latch_contact _ k).trans p, (u.latch_sequencer _).symm ▸ q⟩ }
  exact (s.anyOrder_keeps (P := fun t => t.contact k = s.contact k ∧ t.sequencer.state ≠ .disconnecting) _ keeps.effect
    ⟨rfl, h⟩).1

/-! #### The Sequencer -/

theorem firingKeeps_sequencer {R : Sequencer → Prop}
    (told : a.opens ≠ [] → ∀ u : State, R u.sequencer → R (u.actionOpening cause closing).sequencer) :
    FiringKeeps a cause closing fun t => R t.sequencer where
  opening j _ u p := (u.openRequest_sequencer j _ closing).symm ▸ p
  told := told
  inhibit _ u p := (u.inhibitWith_sequencer cause).symm ▸ p
  capture _ u p := (u.requestCapture_sequencer closing _).symm ▸ p
  wake _ u p := (u.latch_sequencer _).symm ▸ p

theorem State.firedBy_sequencer_kept (h : a.opens = [] ∨ s.sequencer.state = .idle ∨ s.sequencer.state = .tripped) :
    (s.firedBy a cause closing).sequencer = s.sequencer := by
  refine s.anyOrder_keeps (P := fun t => t.sequencer = s.sequencer) _
    (firingKeeps_sequencer a cause closing (R := fun q => q = s.sequencer) fun opens u p => ?_).effect rfl
  have state : u.sequencer.state = .idle ∨ u.sequencer.state = .tripped := p.symm ▸ h.resolve_left opens
  rw [u.actionOpening_kept cause closing state, p]

/-- R124: an opening outside IDLE and TRIPPED makes the Sequencer TRIPPED with the cause. -/
theorem State.firedBy_sequencer_tripped (opens : a.opens ≠ []) (idle : s.sequencer.state ≠ .idle)
    (tripped : s.sequencer.state ≠ .tripped) :
    TrippedBy cause (s.sequencer.state == .disconnecting) (s.firedBy a cause closing).sequencer := by
  have effect : (fun t : State => t.actionOpening cause closing) ∈ firingEffects a cause closing := by
    simp [firingEffects, opens]
  have stays : ∀ u : State, TrippedBy cause (s.sequencer.state == .disconnecting) u.sequencer →
      TrippedBy cause (s.sequencer.state == .disconnecting) (u.actionOpening cause closing).sequencer := fun u p => by
    rwa [u.actionOpening_kept cause closing (.inr p.1)]
  have trips : ∀ u : State, u.sequencer = s.sequencer ∨ TrippedBy cause (s.sequencer.state == .disconnecting) u.sequencer →
      TrippedBy cause (s.sequencer.state == .disconnecting) (u.actionOpening cause closing).sequencer := fun u p => by
    rcases p with same | p
    · rw [← same] at idle tripped ⊢
      exact u.actionOpening_trippedBy cause closing idle tripped
    · exact stays u p
  exact s.anyOrder_reaches (Q := fun t => TrippedBy cause (s.sequencer.state == .disconnecting) t.sequencer) effect
    (firingKeeps_sequencer a cause closing
      (R := fun q => q = s.sequencer ∨ TrippedBy cause (s.sequencer.state == .disconnecting) q)
      fun _ u p => .inr (trips u p)).effect trips
    (firingKeeps_sequencer a cause closing fun _ => stays).effect (.inl rfl)

/-! #### The reclose inhibit set -/

theorem firingKeeps_inhibit {R : List Cause → Prop}
    (inhibit : a.inhibit = true → ∀ u : State, R u.inhibit → R (u.inhibitWith cause).inhibit) :
    FiringKeeps a cause closing fun t => R t.inhibit where
  opening j _ u p := (u.openRequest_inhibit j _ closing).symm ▸ p
  told _ u p := (u.actionOpening_inhibit cause closing).symm ▸ p
  inhibit := inhibit
  capture _ u p := (u.requestCapture_inhibit closing _).symm ▸ p
  wake _ u p := (u.latch_inhibit _).symm ▸ p

theorem State.firedBy_inhibit_kept (h : a.inhibit = false ∨ cause ∈ s.inhibit) :
    (s.firedBy a cause closing).inhibit = s.inhibit := by
  refine s.anyOrder_keeps (P := fun t => t.inhibit = s.inhibit) _
    (firingKeeps_inhibit a cause closing (R := fun l => l = s.inhibit) fun inhibit u p => ?_).effect rfl
  have mem : cause ∈ u.inhibit := p.symm ▸ h.resolve_left (by simp [inhibit])
  rw [u.inhibitWith_inhibit cause, if_pos mem, p]

/-- R76: the cause joins the set once. -/
theorem State.firedBy_inhibit_joins (inhibit : a.inhibit = true) (h : cause ∉ s.inhibit) :
    (s.firedBy a cause closing).inhibit = s.inhibit ++ [cause] := by
  have effect : (fun t : State => t.inhibitWith cause) ∈ firingEffects a cause closing := by simp [firingEffects, inhibit]
  have joins : ∀ u : State, u.inhibit = s.inhibit ∨ u.inhibit = s.inhibit ++ [cause] →
      (u.inhibitWith cause).inhibit = s.inhibit ++ [cause] := fun u p => by
    rcases p with p | p <;> rw [u.inhibitWith_inhibit cause, p]
    · exact if_neg h
    · exact if_pos (List.mem_append_right _ List.mem_cons_self)
  exact s.anyOrder_reaches (Q := fun t => t.inhibit = s.inhibit ++ [cause]) effect
    (firingKeeps_inhibit a cause closing (R := fun l => l = s.inhibit ∨ l = s.inhibit ++ [cause])
      fun _ u p => .inr (joins u p)).effect joins
    (firingKeeps_inhibit a cause closing (R := fun l => l = s.inhibit ++ [cause]) fun _ u p => joins u (.inr p)).effect (.inl rfl)

/-! #### The wake causes -/

theorem firingKeeps_sleep {R : SleepController → Prop}
    (wake : a.wakeHost = true → ∀ u : State, R u.sleep → R (u.latch .breach).sleep) :
    FiringKeeps a cause closing fun t => R t.sleep where
  opening j _ u p := (u.openRequest_sleep j _ closing).symm ▸ p
  told _ u p := (u.actionOpening_sleep cause closing).symm ▸ p
  inhibit _ u p := (u.inhibitWith_sleep cause).symm ▸ p
  capture _ u p := (u.requestCapture_sleep closing _).symm ▸ p
  wake := wake

theorem State.firedBy_sleep_kept (h : a.wakeHost = false ∨ s.sleep.op = .run ∨ s.sleep.op = .unconfigured) :
    (s.firedBy a cause closing).sleep = s.sleep := by
  refine s.anyOrder_keeps (P := fun t => t.sleep = s.sleep) _
    (firingKeeps_sleep a cause closing (R := fun x => x = s.sleep) fun wake u p => ?_).effect rfl
  have op : u.sleep.op = .run ∨ u.sleep.op = .unconfigured := p.symm ▸ h.resolve_left (by simp [wake])
  rw [u.latch_awake _ op, p]

/-- R77, R147: in a sleep state BREACH joins the latched wake causes. -/
theorem State.firedBy_breach (wake : a.wakeHost = true) (run : s.sleep.op ≠ .run) (unconfigured : s.sleep.op ≠ .unconfigured) :
    (s.firedBy a cause closing).sleep.latched = { s.sleep.latched with breach := true } := by
  have effect : (fun t : State => t.latch .breach) ∈ firingEffects a cause closing := by simp [firingEffects, wake]
  have latches : ∀ u : State, LatchedAsleep s.sleep.latched u.sleep ∨ LatchedAsleep (s.sleep.latched.add .breach) u.sleep →
      LatchedAsleep (s.sleep.latched.add .breach) (u.latch .breach).sleep := fun u p => by
    rcases p with before | after
    · exact u.latch_asleep .breach _ before
    · exact u.latch_asleep .breach (s.sleep.latched.add .breach) after
  exact (s.anyOrder_reaches (Q := fun t => LatchedAsleep (s.sleep.latched.add .breach) t.sleep) effect
    (firingKeeps_sleep a cause closing
      (R := fun x => LatchedAsleep s.sleep.latched x ∨ LatchedAsleep (s.sleep.latched.add .breach) x)
      fun _ u p => .inr (latches u p)).effect latches
    (firingKeeps_sleep a cause closing fun _ u p => latches u (.inr p)).effect (.inl ⟨rfl, run, unconfigured⟩)).1

/-! #### The captures -/

/-- Without openings the captures change by the request alone. -/
theorem firingKeeps_captures {R : CaptureUnit → Prop} (opens : a.opens = []) (capture : a.capture = false) :
    FiringKeeps a cause closing fun t => R t.captures ∧ t.unfired = s.unfired where
  opening _ mem := absurd (opens ▸ mem) List.not_mem_nil
  told opening := absurd opens opening
  inhibit _ u p := ⟨(u.inhibitWith_captures cause).symm ▸ p.1, (u.inhibitWith_unfired cause).trans p.2⟩
  capture request := absurd (capture.symm.trans request) Bool.false_ne_true
  wake _ u p := ⟨(u.latch_captures _).symm ▸ p.1, (u.latch_unfired _).trans p.2⟩

theorem State.firedBy_captures_kept (capture : a.capture = false) (opens : a.opens = []) :
    (s.firedBy a cause closing).captures = s.captures :=
  (s.anyOrder_keeps (P := fun t => t.captures = s.captures ∧ t.unfired = s.unfired) _
    (firingKeeps_captures s a cause closing (R := fun u => u = s.captures) opens capture).effect ⟨rfl, rfl⟩).1

/-- The request for a capture is one effect of the firing. -/
theorem firingEffects_perm_capture (capture : a.capture = true) : (firingEffects a cause closing).Perm
    ((fun t : State => t.requestCapture (.action cause) closing) :: firingEffects { a with capture := false } cause closing) := by
  unfold firingEffects
  simp only [capture, if_true, Bool.false_eq_true, if_false, List.append_nil]
  rw [List.append_assoc, List.singleton_append]
  exact List.perm_middle

/-- R78: the capture is requested once. -/
theorem State.firedBy_captures_requested {R : CaptureUnit → Prop} (capture : a.capture = true) (opens : a.opens = [])
    (request : ∀ u : State, u.captures = s.captures → u.time = s.time → R (u.requestCapture (.action cause) closing).captures) :
    R (s.firedBy a cause closing).captures :=
  (s.anyOrder_once (P := fun t => t.captures = s.captures ∧ t.unfired = s.unfired)
    (Q := fun t => R t.captures ∧ t.unfired = s.unfired) (firingEffects_perm_capture a cause closing capture)
    (firingKeeps_captures s { a with capture := false } cause closing (R := fun u => u = s.captures) opens rfl).effect
    (fun u p => ⟨request u p.1 (congrArg Prod.fst p.2), (u.requestCapture_unfired closing _).trans p.2⟩)
    (firingKeeps_captures s { a with capture := false } cause closing opens rfl).effect ⟨rfl, rfl⟩).1

/-- R78, R89: the capture that joins. -/
theorem State.firedBy_capture_joins (capture : a.capture = true) (opens : a.opens = []) (few : s.captures.list.length < 3) :
    ∃ c, (s.firedBy a cause closing).captures.list = s.captures.list ++ [c] ∧ c.cause = .action cause ∧ c.instant = s.time := by
  refine s.firedBy_captures_requested a cause closing
    (R := fun u => ∃ c, u.list = s.captures.list ++ [c] ∧ c.cause = .action cause ∧ c.instant = s.time) capture opens
    fun u same now => ?_
  obtain ⟨c, joined, named, instant⟩ := u.requestCapture_joins closing (.action cause) (same ▸ few)
  exact ⟨c, same ▸ joined, named, instant.trans now⟩

/-- R78, R89: the refusal that is recorded. -/
theorem State.firedBy_capture_refused (capture : a.capture = true) (opens : a.opens = []) (full : 3 ≤ s.captures.list.length) :
    (s.firedBy a cause closing).captures = { s.captures with lastRefusal := some (.action cause, s.time) } := by
  refine s.firedBy_captures_requested a cause closing
    (R := fun u => u = { s.captures with lastRefusal := some (.action cause, s.time) }) capture opens fun u same now => ?_
  rw [u.requestCapture_refused closing _ (same ▸ full), same, now]

end Firing

theorem State.fire_none (s : State) (cause : Cause) (closing : Option RoundNumber) : s.fire none cause closing = s := rfl

/-- R73: while UNCONFIGURED there is no Action Table. -/
theorem State.fire_unconfigured (s : State) (n : Nat) (cause : Cause) (closing : Option RoundNumber) (h : s.image = none) :
    s.fire (some n) cause closing = s := by
  unfold State.fire
  rw [h]

theorem State.fire_of_image (s : State) (n : Nat) (cause : Cause) (closing : Option RoundNumber) (i : Image)
    (h : s.image = some i) : s.fire (some n) cause closing = s.firedBy (i.actionEntry n) cause closing := by
  unfold State.fire
  rw [h]
  rfl

/-- Settles O34: the firing's effects on the channels, the Sequencer, the inhibit set, the wake causes and the captures. -/
theorem actionsFire : Obligations.ActionsFire := by
  intro s cause closing
  refine ⟨s.fire_none cause closing, fun h n => s.fire_unconfigured n cause closing h, ?_⟩
  rintro i n a t image rfl fired
  rw [s.fire_of_image n cause closing i image] at fired
  subst fired
  generalize i.actionEntry n = a
  have unfired := s.firedBy_unfired a cause closing
  simp only [State.unfired, Prod.mk.injEq] at unfired
  obtain ⟨time, cursor, ports, stream, limits, update, store, working⟩ := unfired
  exact ⟨s.firedBy_contact_dropped a cause closing,
    fun k h => Prod.mk.inj (s.firedBy_contact_open a cause closing k h),
    fun h k other => Prod.mk.inj (s.firedBy_contact_other a cause closing k h other),
    s.firedBy_sequencer_kept a cause closing, s.firedBy_sequencer_tripped a cause closing,
    s.firedBy_inhibit_kept a cause closing, s.firedBy_inhibit_joins a cause closing,
    s.firedBy_sleep_kept a cause closing, s.firedBy_breach a cause closing,
    s.firedBy_captures_kept a cause closing, s.firedBy_capture_joins a cause closing, s.firedBy_capture_refused a cause closing,
    time, cursor, ports, stream, limits, update, store, working⟩

end Sys2Proof.Machine
end

section
/-! SUPPORT. The Capture Unit: the capture that a request creates, and the requests CAPTURE_NOW and RELEASE_CAPTURE. -/

namespace Sys2Proof.Machine

/-! ### The id of a new capture (R89) -/

/-- Of one value more than the ids taken and 0 together, one is free. -/
theorem exists_free_id (taken : List Byte) (n : Byte) (few : taken.length + 1 < 256) :
    ∃ j < 256, n + BitVec.ofNat 8 j ∉ taken ∧ n + BitVec.ofNat 8 j ≠ 0#8 := by
  by_contra none_free
  have covered : (List.range (taken.length + 2)).map (fun j => n + BitVec.ofNat 8 j) ⊆ 0#8 :: taken := by
    intro x hx
    obtain ⟨j, hj, rfl⟩ := List.mem_map.1 hx
    have bound := List.mem_range.1 hj
    by_contra free
    obtain ⟨nonzero, fresh⟩ := not_or.1 (free ∘ List.mem_cons.2)
    exact none_free ⟨j, by omega, fresh, nonzero⟩
  have distinct : ((List.range (taken.length + 2)).map fun j => n + BitVec.ofNat 8 j).Nodup := by
    refine List.nodup_range.map_on fun i hi j hj same => ?_
    have := congrArg BitVec.toNat (BitVec.add_right_inj n |>.1 same)
    have := List.mem_range.1 hi
    have := List.mem_range.1 hj
    simp only [BitVec.toNat_ofNat] at *
    omega
  have := (List.subperm_of_subset distinct covered).length_le
  simp only [List.length_map, List.length_range, List.length_cons] at this
  omega

/-! ### The capture that a request creates (R90, R91) -/

section Created

variable (s : State) (cause : CaptureCause) (closing : Option RoundNumber)

theorem State.closedNewestFirst_eq : s.closedNewestFirst closing =
    ((s.ring.filter fun r => r.closed || Decidable.decide (closing = some r.number)).map RoundRecord.number).reverse := by
  unfold State.closedNewestFirst
  simp only [beq_eq_decide]

/-- R90: the round that is being closed, else the newest CLOSED record. -/
theorem State.anchor_eq : s.anchor closing = closing.or (s.closedNewestFirst closing).head? := by
  cases closing <;> rfl

/-- R90: the newest CLOSED record. -/
theorem State.anchor_newest :
    s.anchor none = ((s.ring.filter RoundRecord.closed).map RoundRecord.number).getLast? := by
  rw [s.anchor_eq none, s.closedNewestFirst_eq none, Option.none_or, List.head?_reverse]
  simp

/-- R90: the anchor first, then the newest of the other CLOSED records, up to P in all. -/
theorem State.preRounds_eq (pre : Nat) : s.preRounds closing pre = match s.anchor closing with
    | some a => (a :: (s.closedNewestFirst closing).filter fun n => Decidable.decide (n ≠ a)).take pre
    | none => [] := by
  unfold State.preRounds
  cases s.anchor closing with
  | none => rfl
  | some a => simp only [bne, beq_eq_decide, decide_not]

theorem State.preRounds_none (pre : Nat) (h : s.anchor closing = none) : s.preRounds closing pre = [] := by
  rw [s.preRounds_eq closing pre, h]

theorem State.preRounds_some (pre : Nat) {a : RoundNumber} (h : s.anchor closing = some a) : s.preRounds closing pre =
    (a :: (s.closedNewestFirst closing).filter fun n => Decidable.decide (n ≠ a)).take pre := by
  rw [s.preRounds_eq closing pre, h]

/-- P and Q are those of the working image, and 0 while UNCONFIGURED. -/
def State.captureSizes (pre post : Nat) : Prop :=
  (∀ i, s.image = some i → pre = i.capturePre ∧ post = i.capturePost) ∧ (s.image = none → pre = 0 ∧ post = 0)

theorem State.newCapture_sizes : s.captureSizes (s.newCapture cause closing).pre (s.newCapture cause closing).post := by
  unfold State.captureSizes State.newCapture
  cases s.image with
  | none => exact ⟨nofun, fun _ => ⟨rfl, rfl⟩⟩
  | some i =>
    refine ⟨fun j same => ?_, nofun⟩
    obtain rfl := Option.some.inj same
    exact ⟨rfl, rfl⟩

theorem State.newCapture_held : (s.newCapture cause closing).held = (s.ring.filter fun r =>
    Decidable.decide (r.number ∈ s.preRounds closing (s.newCapture cause closing).pre)).map fun r => ⟨r.number, .pre, false⟩ := by
  unfold State.newCapture
  simp only [List.contains_eq_mem]

/-- R90, R91: every field of a new capture. -/
theorem State.newCapture_eq {pre post : Nat} (sizes : s.captureSizes pre post) : s.newCapture cause closing = {
    id := freeId (s.captures.list.map Capture.id) 256 s.captures.nextId
    cause := cause, instant := s.time, epoch := s.workingEpoch, pre := pre, post := post, anchor := s.anchor closing
    held := (s.ring.filter fun r => Decidable.decide (r.number ∈ s.preRounds closing pre)).map fun r => ⟨r.number, .pre, false⟩
    samples := s.stream.history, stream := s.stream.state
    contactors := ⟨s.snapshot .K1, s.snapshot .K2, s.snapshot .K3, s.snapshot .K4⟩
    sequencer := s.sequencer.state, complete := Decidable.decide (post = 0) } := by
  have same : pre = (s.newCapture cause closing).pre ∧ post = (s.newCapture cause closing).post := by
    obtain ⟨configured, unconfigured⟩ := s.newCapture_sizes cause closing
    obtain ⟨configured', unconfigured'⟩ := sizes
    cases image : s.image with
    | none =>
      obtain ⟨p, q⟩ := unconfigured image
      obtain ⟨p', q'⟩ := unconfigured' image
      exact ⟨p'.trans p.symm, q'.trans q.symm⟩
    | some i =>
      obtain ⟨p, q⟩ := configured i image
      obtain ⟨p', q'⟩ := configured' i image
      exact ⟨p'.trans p.symm, q'.trans q.symm⟩
  obtain ⟨rfl, rfl⟩ := same
  rw [← s.newCapture_held cause closing]
  have complete : (s.newCapture cause closing).complete = Decidable.decide ((s.newCapture cause closing).post = 0) :=
    beq_eq_decide ..
  rw [← complete]
  rfl

/-- R89: fewer than 255 captures leave an id. -/
theorem State.newCapture_id (few : s.captures.list.length < 3) :
    (∀ d ∈ s.captures.list, d.id ≠ (s.newCapture cause closing).id) ∧ (s.newCapture cause closing).id ≠ 0#8 := by
  obtain ⟨fresh, nonzero⟩ := freeId_fresh (s.captures.list.map Capture.id) s.captures.nextId 256
    (exists_free_id _ _ (by rw [List.length_map]; omega))
  exact ⟨fun d hd same => fresh (List.mem_map.2 ⟨d, hd, same⟩), nonzero⟩

theorem State.mem_closedNewestFirst (n : RoundNumber) :
    n ∈ s.closedNewestFirst none ↔ ∃ r ∈ s.ring, r.number = n ∧ r.closed = true := by
  rw [s.closedNewestFirst_eq none]
  simp only [List.mem_reverse, List.mem_map, List.mem_filter, reduceCtorEq, decide_false, Bool.or_false]
  exact ⟨fun ⟨r, ⟨mem, closed⟩, number⟩ => ⟨r, mem, number, closed⟩,
    fun ⟨r, mem, number, closed⟩ => ⟨r, ⟨mem, closed⟩, number⟩⟩

/-- R90: with no round being closed, the pre rounds are of CLOSED records. -/
theorem State.preRounds_closed {pre : Nat} {n : RoundNumber} (h : n ∈ s.preRounds none pre) : n ∈ s.closedNewestFirst none := by
  cases anchor : s.anchor none with
  | none => exact absurd (s.preRounds_none none pre anchor ▸ h) List.not_mem_nil
  | some a =>
    rw [s.preRounds_some none pre anchor] at h
    rcases List.mem_cons.1 (List.mem_of_mem_take h) with rfl | other
    · exact List.mem_of_mem_head? anchor
    · exact (List.mem_filter.1 other).1

/-- R90: what a capture holds at its creation, with no round being closed. -/
theorem State.newCapture_holds {h : HeldRound} (mem : h ∈ (s.newCapture cause none).held) :
    h.kind = .pre ∧ h.dropped = false ∧ ∃ r ∈ s.ring, r.number = h.number ∧ r.closed = true := by
  rw [s.newCapture_held cause none] at mem
  obtain ⟨r, chosen, rfl⟩ := List.mem_map.1 mem
  have pre := of_decide_eq_true (List.mem_filter.1 chosen).2
  exact ⟨rfl, rfl, (s.mem_closedNewestFirst r.number).1 (s.preRounds_closed pre)⟩

end Created

/-! ### CAPTURE_NOW (R93) -/

section Now

variable (s : State) (tag : Byte) (ready : s.linkReady)

include ready

theorem exec_captureNow_creates (few : s.captures.list.length < 3) : exec (.captureNow tag) s =
    .next (((s.addCapture (s.newCapture .host none)).answered tag .done
      (.captureId (s.newCapture .host none).id)).noticeDone (s.newCapture .host none)) := by
  have answer : (s.taken.addCapture (s.newCapture .host none)).reply tag .done (.captureId (s.newCapture .host none).id) =
      (s.addCapture (s.newCapture .host none)).answered tag .done (.captureId (s.newCapture .host none).id) :=
    State.reply_queued _ _ _ _ (s.taken_open ready)
  refine exec_request_eq (.captureNow tag) s rfl ready ?_
  rw [← answer]
  exact if_pos few

theorem exec_captureNow_refused (full : 3 ≤ s.captures.list.length) : exec (.captureNow tag) s =
    .next ((s.recordRefusal .host).answered tag .refusedState .none) := by
  have answer : (s.taken.recordRefusal .host).reply tag .refusedState .none =
      (s.recordRefusal .host).answered tag .refusedState .none := State.reply_queued _ _ _ _ (s.taken_open ready)
  refine exec_request_eq (.captureNow tag) s rfl ready ?_
  rw [← answer]
  exact if_neg (Nat.not_lt.2 full)

end Now

/-- Settles O21: the request, and what a new capture is for every cause. -/
theorem captureNowAnswers : Obligations.CaptureNowAnswers := by
  refine ⟨fun s tag ready => ⟨fun few => ?_, exec_captureNow_refused s tag ready⟩, ?_,
    fun taken n j => freeId_first taken 256 n j⟩
  · obtain ⟨fresh, nonzero⟩ := s.newCapture_id .host none few
    obtain ⟨configured, unconfigured⟩ := s.newCapture_sizes .host none
    exact ⟨s.newCapture .host none, rfl, nonzero, fresh, rfl, rfl, rfl, rfl, rfl, rfl, beq_iff_eq, s.anchor_newest,
      configured, unconfigured, fun h => s.newCapture_holds .host, exec_captureNow_creates s tag ready few⟩
  · rintro s cause closing pre post closed configured unconfigured rfl
    rw [← s.closedNewestFirst_eq closing]
    refine ⟨s.newCapture_eq cause closing ⟨configured, unconfigured⟩, ?_, ?_, s.preRounds_none closing pre,
      fun a => s.preRounds_some closing pre, fun k => rfl⟩
    · rintro n rfl
      rfl
    · rintro rfl
      rfl

/-! ### RELEASE_CAPTURE (R96) -/

/-- Settles O23: an id that no capture has, and the release of the capture that has it. -/
theorem releaseCaptureAnswers : Obligations.ReleaseCaptureAnswers := by
  intro s tag id ready
  refine ⟨fun absent => ?_, fun c found => ?_⟩
  · have missing : s.taken.captureWith id = none := (s.captureWith_none_iff id).2 absent
    refine exec_request_eq (.releaseCapture tag id) s rfl ready (Eq.trans ?_ (s.taken_reply ready tag .noSuch .none))
    show s.taken.requestRelease tag id = _
    unfold State.requestRelease
    rw [missing]
  · obtain ⟨_, rfl⟩ := s.captureWith_some id c found
    have released : s.taken.requestRelease tag c.id = (s.taken.releaseCapture c).reply tag .done .none := by
      unfold State.requestRelease
      rw [show s.taken.captureWith c.id = some c from found]
    exact exec_request_eq (.releaseCapture tag c.id) s rfl ready
      (released.trans (State.reply_queued _ _ _ _ (s.taken_open ready)))

end Sys2Proof.Machine
end

section
/-! SUPPORT. READ_ROUND: the record of a number, the answer, and the bytes of a record. -/

namespace Sys2Proof.Machine

/-! ### The record of a number (R83, R86) -/

theorem State.record_some (s : State) (n : RoundNumber) (r : RoundRecord) (h : s.record n = some r) :
    r ∈ s.ring ∧ r.number = n := ⟨List.mem_of_find?_eq_some h, State.record_number h⟩

/-! ### The answer (R86) -/

theorem State.requestReadRound_some (s : State) (tag : Byte) (n : RoundNumber) (r : RoundRecord) (h : s.record n = some r) :
    s.requestReadRound tag n = if r.closed then s.reply tag .done (.round r) else s.reply tag .busy .none := by
  unfold State.requestReadRound
  rw [h]

theorem State.requestReadRound_none (s : State) (tag : Byte) (n : RoundNumber) (h : s.record n = none) :
    s.requestReadRound tag n = s.reply tag .noSuch .none := by
  unfold State.requestReadRound
  rw [h]

/-! ### The bytes of a record (11.3) -/

theorem flagByte_two : ∀ a b : Bool, flagByte [a, b] = (if a then 1#8 else 0#8) ||| (if b then 2#8 else 0#8) := by decide

theorem flagByte_three : ∀ a b c : Bool,
    flagByte [a, b, c] = (if a then 1#8 else 0#8) ||| (if b then 2#8 else 0#8) ||| (if c then 4#8 else 0#8) := by decide

theorem Reading.bytes_eq (x : Reading) : x.bytes = [BitVec.ofNat 8 x.position,
    (match x.status with | .ok => 0#8 | .missing => 1#8 | .checkFailed => 2#8 | .unaligned => 3#8),
    (if x.nodeReset then 1#8 else 0#8) ||| (if x.localFault then 2#8 else 0#8), BitVec.ofNat 8 x.cells.length,
    BitVec.ofNat 8 x.temps.length] ++ x.cells.flatMap bytes16 ++ x.temps.flatMap bytes16 := by
  rw [← flagByte_two]
  rfl

theorem ChainPart.bytes_eq (p : ChainPart) : p.bytes = [(match p.chain with | .A => 0#8 | .B => 1#8),
    (match p.state with | .waiting => 0#8 | .sent => 1#8 | .missed => 2#8 | .stopped => 3#8),
    (match p.endCause with | none => 0#8 | some .complete => 1#8 | some .deadline => 2#8 | some .aborted => 3#8)] ++
    bytes32 (p.actual.getD 0#32) ++ bytes32 (p.lateness.getD 0#32) ++
    (match p.current with
      | none => [0#8, 0#8, 0#8, 0#8, 0#8, 0#8]
      | some c => [1#8, (c.value >>> 16).truncate 8, (c.value >>> 8).truncate 8, c.value.truncate 8] ++
          bytes16 (BitVec.ofInt 16 c.skew)) ++ BitVec.ofNat 8 p.readings.length :: p.readings.flatMap Reading.bytes := by
  unfold ChainPart.bytes
  cases p.current <;> rfl

/-- Settles O20: the answers, what the ring holds under a number, and the bytes of a record. -/
theorem readRoundAnswers : Obligations.ReadRoundAnswers := by
  refine ⟨fun s tag n ready => ?_, ?_⟩
  · have answered : ∀ (x : ReplyStatus) (r : ResultData), s.taken.requestReadRound tag n = s.taken.reply tag x r →
        exec (.readRound tag n) s = .next (s.answered tag x r) := fun x r e =>
      exec_request_eq (.readRound tag n) s rfl ready (e.trans (s.taken_reply ready tag x r))
    refine ⟨fun r found closed => answered _ _ ?_, fun r found collecting => answered _ _ ?_, fun none_ => answered _ _ ?_,
      s.record_none_iff n, s.record_some n⟩
    · exact (s.taken.requestReadRound_some tag n r found).trans (if_pos closed)
    · exact (s.taken.requestReadRound_some tag n r found).trans (if_neg (by simp [collecting]))
    · exact s.taken.requestReadRound_none tag n none_
  · rintro r byte reading part verdict rfl readings parts rfl
    obtain rfl : reading = Reading.bytes := readings.trans (funext fun x => x.bytes_eq.symm)
    obtain rfl : part = ChainPart.bytes := parts.trans (funext fun p => p.bytes_eq.symm)
    rw [← flagByte_three]
    rfl

end Sys2Proof.Machine
end

section
/-! SUPPORT. The end of an exchange that carries no inbound frame: what becomes of its head frame. -/

namespace Sys2Proof.Machine

/-! ### The head frame (R87, R178) -/

/-- R178: a frame that is not clocked out whole stays. -/
theorem State.settleExchange_cut (s : State) (e : Exchange) (n : Nat) (cut : e.whole n = false) : s.settleExchange e n = s := by
  unfold State.settleExchange
  rw [cut]
  cases e.frame <;> rfl

/-- R178: a frame clocked out whole leaves the queue. -/
theorem State.settleExchange_whole (s : State) (e : Exchange) (n : Nat) (q : Queued) (frame : e.frame = some q)
    (whole : e.whole n = true) : s.settleExchange e n = ({ s with link := s.link.depart q } : State).markReported q.frame := by
  unfold State.settleExchange
  rw [frame]
  exact if_pos whole

/-- R87: a ROUND REPORT sets the reported flag of its record. -/
theorem State.markReported_eq (s : State) (f : Outbound) : s.markReported f = { s with
    ring := match f with
      | .roundReport r => s.ring.map fun x =>
          if x.number == r.number && x.planned == r.planned then { x with reported := true } else x
      | _ => s.ring } := by
  cases f <;> rfl

/-! ### The exchange without an inbound frame (R173) -/

theorem Exchange.clockedFinal_cut (e : Exchange) (n : Nat) (cut : e.whole n = false) : e.clockedFinal n = false := by
  unfold Exchange.clockedFinal
  rw [cut, Bool.false_and]

theorem Exchange.clockedFinal_plain (e : Exchange) (n : Nat) (q : Queued) (frame : e.frame = some q)
    (plain : q.final = false) : e.clockedFinal n = false := by
  unfold Exchange.clockedFinal
  rw [frame]
  dsimp only
  rw [plain, Bool.and_false]

/-- R173: with no inbound frame, and nothing final clocked out, the settling and the inbound flags are all. -/
theorem exec_exchangeEnd_silent (s u : State) (b : List Byte) (e : Exchange) (he : s.link.exchange = some e)
    (live : e.kind = .live) (silent : decodeInbound b = .none) (final : e.clockedFinal b.length = false)
    (settled : ({ s with link := { s.link with exchange := none } } : State).settleExchange e b.length = u) :
    exec (.exchangeEnd b) s = .next { u with link := u.link.noInbound } := by
  refine congrArg Host.Outcome.next ?_
  unfold State.endExchange State.judgeInbound
  rw [he]
  dsimp only
  rw [live, silent, settled]
  dsimp only
  rw [if_neg (by simp [final])]

/-- Settles O11: the head frame that stays, and the one that leaves. -/
theorem exchangeEndSettlesHead : Obligations.ExchangeEndSettlesHead := by
  refine fun s b e he live silent => ⟨fun cut => ?_, fun q frame plain whole => ?_⟩
  · exact exec_exchangeEnd_silent s _ b e he live silent (e.clockedFinal_cut _ cut) (State.settleExchange_cut _ e _ cut)
  · exact exec_exchangeEnd_silent s _ b e he live silent (e.clockedFinal_plain _ q frame plain)
      ((State.settleExchange_whole _ e _ q frame whole).trans (State.markReported_eq _ _))

end Sys2Proof.Machine
end

section
/-! SUPPORT. TAMP# and SVC#: their filters, the tamper event stage by stage, and the capture that it requests. -/

namespace Sys2Proof.Machine

/-! ### The filters (R168) -/

theorem InputFilter.take_running (f : InputFilter) (level : Bool) (now : Instant) (h : f.running = true) :
    f.take level now = { f with
      pending := if level = f.active then none else some level
      pendingExpiry := if level = f.active then none else some (now + 1000#32) } := by
  unfold InputFilter.take
  rw [if_neg (by simp [h])]
  by_cases same : level = f.active
  · simp only [if_pos same]
  · simp only [if_neg same]

theorem InputFilter.expire_pending (f : InputFilter) (level : Bool) (h : f.pending = some level) :
    f.expire = { f with active := level, pending := none, pendingExpiry := none } := by
  unfold InputFilter.expire
  rw [h]
  rfl

theorem InputFilter.due_of (f : InputFilter) (due now : Instant) (h : f.pendingExpiry = some due)
    (r : reached due now = true) : f.due now = true := (expired_iff f.pendingExpiry now).2 ⟨due, h, r⟩

section Filters

variable (s : State) (active : Bool) (held : s.held = false)

include held

theorem exec_tampInputChange_running (other : s.pins.tamp ≠ active) (running : s.tampFilter.running = true) :
    exec (.tampInputChange active) s = .next { s with
      pins := { s.pins with tamp := active }
      tampFilter := { s.tampFilter with
        pending := if active = s.tampFilter.active then none else some active
        pendingExpiry := if active = s.tampFilter.active then none else some (s.time + 1000#32) } } := by
  rw [← s.tampFilter.take_running active s.time running]
  exact congrArg Host.Outcome.next ((if_neg other).trans (if_neg fun h => Bool.false_ne_true (held.symm.trans h)))

theorem exec_svcInputChange_running (other : s.pins.svc ≠ active) (running : s.svcFilter.running = true) :
    exec (.svcInputChange active) s = .next { s with
      pins := { s.pins with svc := active }
      svcFilter := { s.svcFilter with
        pending := if active = s.svcFilter.active then none else some active
        pendingExpiry := if active = s.svcFilter.active then none else some (s.time + 1000#32) } } := by
  rw [← s.svcFilter.take_running active s.time running]
  exact congrArg Host.Outcome.next ((if_neg other).trans (if_neg fun h => Bool.false_ne_true (held.symm.trans h)))

/-- R168: the filtered level of TAMP# takes the pending one, and an active one is a tamper event. -/
theorem exec_tampFilterExpiry_pending (due : Instant) (expiry : s.tampFilter.pendingExpiry = some due)
    (r : reached due s.time = true) (pending : s.tampFilter.pending = some active) : exec .tampFilterExpiry s =
      .next (if active then ({ s with
        tampFilter := { s.tampFilter with active := active, pending := none, pendingExpiry := none } } : State).tamperEvent
      else { s with tampFilter := { s.tampFilter with active := active, pending := none, pendingExpiry := none } }) := by
  rw [exec_tampFilterExpiry s held (s.tampFilter.due_of due s.time expiry r),
    ← s.tampFilter.expire_pending active pending]
  have filtered : s.tampFilter.expire.active = active := by rw [s.tampFilter.expire_pending active pending]
  unfold State.tampFiltered
  dsimp only
  rw [filtered]

end Filters

/-! ### What a tamper event does to the update (R169) -/

theorem State.invalidateTarget_frame (s : State) : ∃ store, store.floor = s.store.floor ∧
    s.invalidateTarget = { s with store := store } := by
  cases target : s.update.target with
  | none =>
    unfold State.invalidateTarget
    rw [target]
    exact ⟨s.store, rfl, rfl⟩
  | some k =>
    rw [s.invalidateTarget_target k target]
    exact ⟨_, by cases k <;> rfl, rfl⟩

theorem State.failCommit_frame (s : State) (reason : CommitFailure) : ∃ link, s.failCommit reason = { s with
    store := s.invalidateTarget.store
    update := { s.update.emptied with lastOutcome := some (.commitFailed reason, s.time) }
    commit := .none, link := link } := by
  obtain ⟨store, -, e⟩ := s.invalidateTarget_frame
  unfold State.failCommit
  dsimp only
  rw [e]
  exact ⟨_, rfl⟩

theorem State.answerCommit_frame (s : State) (status : ReplyStatus) (result : ResultData) :
    ∃ commit link, s.answerCommit status result = { s with commit := commit, link := link } := by
  unfold State.answerCommit
  cases s.commit.tag with
  | none => exact ⟨s.commit, s.link, rfl⟩
  | some tag => exact ⟨_, _, rfl⟩

theorem State.answerCommit_owed (s : State) (tag : Byte) (status : ReplyStatus) (result : ResultData)
    (h : s.commit.tag = some tag) : s.answerCommit status result =
      ({ s with commit := { s.commit with tag := none } } : State).reply tag status result := by
  unfold State.answerCommit
  rw [h]

/-- The flag of the store is no part of a slot. -/
theorem ImageStore.slot_tamperFlag (x : ImageStore) (k : Slot) (flag : Bool) :
    ({ x with tamperFlag := flag } : ImageStore).slot k = x.slot k := by cases k <;> rfl

/-- Nothing is staged, and no update is under way. -/
def UpdateEngine.isEmptied (u : UpdateEngine) : Prop := u.state = .closed ∧ u.staging = none ∧ u.stagedEpoch = none

section Update

variable (s : State)

theorem State.tamperUpdate_untouched (h : s.update.state = .closed ∨ s.update.state = .applyPending) :
    s.tamperUpdate = s := by
  unfold State.tamperUpdate
  rcases h with h | h <;> rw [h]

theorem State.tamperUpdate_opened (h : s.update.state = .opened) : s.tamperUpdate = s.setUpdate UpdateEngine.emptied := by
  unfold State.tamperUpdate
  rw [h]

theorem State.tamperUpdate_validating (h : s.update.state = .validating) :
    s.tamperUpdate = { (s.answerCommit .locked .none).setUpdate UpdateEngine.emptied with commit := .none } := by
  unfold State.tamperUpdate
  rw [h]

theorem State.tamperUpdate_committing (h : s.update.state = .writing ∨ s.update.state = .verifying) :
    s.tamperUpdate = s.failCommit .tamper := by
  unfold State.tamperUpdate
  rcases h with h | h <;> rw [h]

/-- A commit that a tamper event fails has no epoch in its notice (entry 27). -/
theorem State.failCommit_tamper (k : Slot) (target : s.update.target = some k) : s.failCommit .tamper = ({ s with
    store := s.store.setSlot k { s.store.slot k with state := .invalid }
    update := { s.update with
      state := .closed, staging := none, stagedEpoch := none, idleExpiry := none, target := none
      lastOutcome := some (.commitFailed .tamper, s.time) }
    commit := .none } : State).notify (.commitFailed .tamper none) := by
  unfold State.failCommit
  dsimp only
  rw [s.invalidateTarget_target k target, if_neg (by simp)]
  rfl

/-- R169: what a tamper event writes of the update; unless the swap is made or no update is open, nothing stays staged. -/
theorem State.tamperUpdate_frame : ∃ store update commit link, store.floor = s.store.floor ∧
    (s.update.state ≠ .applyPending → s.update.state ≠ .closed → update.isEmptied) ∧
    s.tamperUpdate = { s with store := store, update := update, commit := commit, link := link } := by
  cases state : s.update.state with
  | closed => exact ⟨_, _, _, _, rfl, fun _ unclosed => absurd rfl unclosed, s.tamperUpdate_untouched (.inl state)⟩
  | applyPending => exact ⟨_, _, _, _, rfl, fun unswapped => absurd rfl unswapped, s.tamperUpdate_untouched (.inr state)⟩
  | opened => exact ⟨_, _, _, _, rfl, fun _ _ => ⟨rfl, rfl, rfl⟩, s.tamperUpdate_opened state⟩
  | validating =>
    obtain ⟨commit, link, e⟩ := s.answerCommit_frame .locked .none
    rw [s.tamperUpdate_validating state, e]
    exact ⟨_, _, _, _, rfl, fun _ _ => ⟨rfl, rfl, rfl⟩, rfl⟩
  | writing | verifying =>
    obtain ⟨store, floor, e⟩ := s.invalidateTarget_frame
    obtain ⟨link, failed⟩ := s.failCommit_frame .tamper
    rw [s.tamperUpdate_committing (by simp [state]), failed, e]
    exact ⟨_, _, _, _, floor, fun _ _ => ⟨rfl, rfl, rfl⟩, rfl⟩

/-- R169: the target slot of a commit under way is INVALID. -/
theorem State.tamperUpdate_slot (k : Slot) (h : s.update.state = .writing ∨ s.update.state = .verifying)
    (target : s.update.target = some k) : (s.tamperUpdate.store.slot k).state = .invalid := by
  rw [s.tamperUpdate_committing h, s.failCommit_tamper k target]
  cases k <;> rfl

end Update

/-! ### The tamper event (R169) -/

section Event

variable (s : State)

/-- R169: the update is dealt with, and the latch and the flag of the store are set. -/
def State.tamperLatched (s : State) : State :=
  { s.tamperUpdate with
    update := { s.tamperUpdate.update with latch := true }
    store := { s.tamperUpdate.store with tamperFlag := true } }

/-- R169: what follows the latch: the capture, the action of the working image, the notice and the wake cause. -/
def State.tamperFollows (v : State) (action : Option Nat) (before : UpdateState) : State :=
  (((v.requestCapture (.action .tamper) none).fire action .tamper none).notifyAwake (.tamper before)).latch .tamper

/-- R169: the tamper action that the working image names. -/
def State.tamperAction (s : State) : Option Nat :=
  match s.image with
  | some i => i.tamperAction
  | none => none

theorem State.tamperAction_eq_none_iff :
    s.tamperAction = none ↔ s.image = none ∨ ∃ i, s.image = some i ∧ i.tamperAction = none := by
  unfold State.tamperAction
  cases s.image <;> simp

theorem State.tamperAction_of_image (i : Image) (image : s.image = some i) : s.tamperAction = i.tamperAction := by
  unfold State.tamperAction
  rw [image]

theorem State.tamperLatched_image : s.tamperLatched.image = s.image := by
  obtain ⟨store, update, commit, link, -, -, e⟩ := s.tamperUpdate_frame
  unfold State.tamperLatched
  rw [e]
  rfl

theorem State.requestCapture_image (cause : CaptureCause) (closing : Option RoundNumber) :
    (s.requestCapture cause closing).image = s.image := by
  obtain ⟨link, captures, ring, e⟩ := s.requestCapture_frame cause closing
  rw [e]
  rfl

theorem State.tamperEvent_eq : s.tamperEvent = s.tamperLatched.tamperFollows s.tamperAction s.update.state := by
  have action : (s.tamperLatched.requestCapture (.action .tamper) none).tamperAction = s.tamperAction := by
    unfold State.tamperAction
    rw [State.requestCapture_image, State.tamperLatched_image]
  rw [← action]
  rfl

theorem State.notifyAwake_unfired (n : Notice) : (s.notifyAwake n).unfired = s.unfired := by
  obtain ⟨link, e⟩ := s.notifyAwake_frame n
  rw [e]
  rfl

theorem State.notifyAwake_inhibit (n : Notice) : (s.notifyAwake n).inhibit = s.inhibit := by
  obtain ⟨link, e⟩ := s.notifyAwake_frame n
  rw [e]

theorem State.fire_unfired (action : Option Nat) (cause : Cause) (closing : Option RoundNumber) :
    (s.fire action cause closing).unfired = s.unfired := by
  cases action with
  | none => rw [s.fire_none]
  | some n =>
    cases image : s.image with
    | none => rw [s.fire_unconfigured n cause closing image]
    | some i => rw [s.fire_of_image n cause closing i image, s.firedBy_unfired]

/-- What follows the latch changes neither the update nor the store. -/
theorem State.tamperFollows_unfired (action : Option Nat) (before : UpdateState) :
    (s.tamperFollows action before).unfired = s.unfired := by
  unfold State.tamperFollows
  rw [State.latch_unfired, State.notifyAwake_unfired, State.fire_unfired, State.requestCapture_unfired]

theorem State.tamperEvent_written :
    s.tamperEvent.update = s.tamperLatched.update ∧ s.tamperEvent.store = s.tamperLatched.store := by
  have same := s.tamperLatched.tamperFollows_unfired s.tamperAction s.update.state
  rw [← s.tamperEvent_eq] at same
  simp only [State.unfired, Prod.mk.injEq] at same
  obtain ⟨-, -, -, -, -, update, store, -⟩ := same
  exact ⟨update, store⟩

/-- With no tamper action no channel moves, and the inhibit set stands. -/
theorem State.tamperEvent_inert (h : s.tamperAction = none) :
    s.tamperEvent.channels = s.channels ∧ s.tamperEvent.inhibit = s.inhibit := by
  obtain ⟨store, update, commit, link, -, -, latched⟩ := s.tamperUpdate_frame
  rw [s.tamperEvent_eq, h]
  unfold State.tamperFollows
  rw [State.fire_none]
  obtain ⟨link₁, captures, ring, captured⟩ := s.tamperLatched.requestCapture_frame (.action .tamper) none
  obtain ⟨link₂, noticed⟩ := (s.tamperLatched.requestCapture (.action .tamper) none).notifyAwake_frame (.tamper s.update.state)
  rw [noticed, captured]
  unfold State.tamperLatched
  rw [latched]
  unfold State.latch
  split <;> exact ⟨rfl, rfl⟩

/-- R76: an action with its inhibit flag set puts its cause into the set. -/
theorem State.firedBy_inhibit_mem (a : ActionEntry) (cause : Cause) (closing : Option RoundNumber) (h : a.inhibit = true) :
    cause ∈ (s.firedBy a cause closing).inhibit := by
  by_cases there : cause ∈ s.inhibit
  · rwa [s.firedBy_inhibit_kept a cause closing (.inr there)]
  · rw [s.firedBy_inhibit_joins a cause closing h there]
    exact List.mem_append_right _ List.mem_cons_self

theorem State.tamperEvent_inhibits (i : Image) (n : Nat) (image : s.image = some i) (action : i.tamperAction = some n)
    (h : (i.actionEntry n).inhibit = true) : .tamper ∈ s.tamperEvent.inhibit := by
  have requested : (s.tamperLatched.requestCapture (.action .tamper) none).image = some i :=
    (State.requestCapture_image _ _ _).trans (s.tamperLatched_image.trans image)
  rw [s.tamperEvent_eq, s.tamperAction_of_image i image, action]
  unfold State.tamperFollows
  rw [State.latch_inhibit, State.notifyAwake_inhibit, State.fire_of_image _ n .tamper none i requested]
  exact State.firedBy_inhibit_mem _ _ _ _ h

end Event

/-! ### The capture that is requested (R89 to R91) -/

theorem State.requestCapture_full (s : State) (cause : CaptureCause) (closing : Option RoundNumber)
    (full : 3 ≤ s.captures.list.length) :
    s.requestCapture cause closing = (s.recordRefusal cause).notifyAwake (.captureRefused cause) :=
  if_neg (Nat.not_lt.2 full)

theorem State.requestCapture_creates (s : State) (cause : CaptureCause) (closing : Option RoundNumber)
    (few : s.captures.list.length < 3) : s.requestCapture cause closing =
      (s.addCapture (s.newCapture cause closing)).noticeDone (s.newCapture cause closing) := if_pos few

/-- Settles O60: the filters, what a tamper event leaves, the event stage by stage, and the capture that is requested. -/
theorem tamperAndServiceFilters : Obligations.TamperAndServiceFilters := by
  refine ⟨⟨fun s active held => ⟨exec_tampInputChange_running s active held, exec_svcInputChange_running s active held,
    fun due expiry r pending => ?_, ?_⟩, fun s => ?_⟩, ?_, ?_⟩
  · rw [exec_svcFilterExpiry s held (s.svcFilter.due_of due s.time expiry r), s.svcFilter.expire_pending active pending]
  · rintro due u expiry r pending rfl
    rw [exec_tampFilterExpiry_pending s active held due expiry r pending]
    exact ⟨fun inactive => by rw [if_neg (by simp [inactive])], fun h => by rw [if_pos h]⟩
  · obtain ⟨update, store⟩ := s.tamperEvent_written
    obtain ⟨store', update', commit, link, floor, emptied, e⟩ := s.tamperUpdate_frame
    have latched : s.tamperLatched.update = { s.tamperUpdate.update with latch := true } := rfl
    have flagged : s.tamperLatched.store = { s.tamperUpdate.store with tamperFlag := true } := rfl
    refine ⟨by rw [update, latched], by rw [store, flagged], ?_, fun state => ?_, fun unswapped unclosed => ?_,
      fun k state target => ?_, fun none_ => s.tamperEvent_inert (s.tamperAction_eq_none_iff.2 none_),
      s.tamperEvent_inhibits⟩
    · rw [store, flagged, e]
      exact floor
    · rw [update, store, latched, flagged, s.tamperUpdate_untouched state]
      exact ⟨rfl, rfl⟩
    · rw [update, latched, e]
      exact emptied unswapped unclosed
    · rw [store, flagged]
      exact (congrArg SlotContents.state (ImageStore.slot_tamperFlag _ k true)).trans (s.tamperUpdate_slot k state target)
  · rintro s u v rfl found
    obtain rfl : s.tamperUpdate = u := by
      rcases found with ⟨state, rfl⟩ | ⟨state, rfl⟩ | ⟨tag, state, owed, rfl⟩ | ⟨k, state, target, rfl⟩
      · exact u.tamperUpdate_untouched state
      · exact s.tamperUpdate_opened state
      · rw [s.tamperUpdate_validating state, s.answerCommit_owed tag .locked .none owed]
        rfl
      · rw [s.tamperUpdate_committing state, s.failCommit_tamper k target]
    rw [s.tamperEvent_eq]
    refine ⟨fun image => ?_, fun i image => ?_⟩
    · rw [s.tamperAction_eq_none_iff.2 (.inl image)]
      rfl
    · rw [s.tamperAction_of_image i image]
      rfl
  · rintro s cause closing anchor pre post closed chosen c configured unconfigured rfl anchored picked created
    rw [← s.closedNewestFirst_eq closing] at anchored picked
    obtain rfl : anchor = s.anchor closing := anchored.trans (s.anchor_eq closing).symm
    obtain rfl : chosen = s.preRounds closing pre := picked.trans (s.preRounds_eq closing pre).symm
    obtain rfl : s.newCapture cause closing = c :=
      (s.newCapture_eq cause closing ⟨configured, unconfigured⟩).trans created.symm
    exact ⟨s.requestCapture_full cause closing, fun few => ⟨rfl, s.requestCapture_creates cause closing few⟩⟩

end Sys2Proof.Machine
end

section
/-! SUPPORT. The supervision window as the channels move, a close request, and CONNECT. -/

namespace Sys2Proof.Machine

/-! ### The supervision window (R131) -/

theorem State.allOpen_eq_false {s : State} {k : ChannelId} (h : (s.channel k).state ≠ .opened) : s.allOpen = false :=
  Bool.eq_false_iff.2 fun all => h (s.allOpen_iff.1 all k)

/-- R131: with every channel OPEN the window is disarmed, and keeps its early bound (entry 13). -/
theorem State.syncWindow_disarms (s : State) (all : s.allOpen = true) (armed : s.window.armed = true) :
    s.syncWindow = { s with window := ⟨false, none, s.window.earlyIsWmin, none, none, 0⟩ } := by
  unfold State.syncWindow
  rw [if_pos all, if_pos armed]
  rfl

theorem State.syncWindow_kept (s : State) (h : s.allOpen = !s.window.armed) : s.syncWindow = s := by
  unfold State.syncWindow
  rw [h]
  cases s.window.armed <;> rfl

/-- R131: a window armed now, its expiry Wmax away. -/
theorem State.syncWindow_arms (s : State) (i : Image) (image : s.image = some i) (left : s.allOpen = false)
    (disarmed : s.window.armed = false) : s.syncWindow =
      { s with window := ⟨true, some s.time, true, some (s.time + millis i.shared.wmax), none, 0⟩ } := by
  unfold State.syncWindow State.armWindow State.wmax
  rw [left, disarmed, s.shared_of_image image]
  rfl

/-- R131: the window is armed by the first channel that leaves OPEN. -/
theorem State.syncWindow_leaving (s : State) (k : ChannelId) (c : Channel) (d : Drive) (i : Image) (image : s.image = some i)
    (leaves : c.state ≠ .opened) (window : s.windowFollows) : ((s.setChannel k c).setDrive k d).syncWindow =
      { s with
        channels := s.channels.set k c
        drives := s.drives.set k d
        window :=
          if s.allOpen then ⟨true, some s.time, true, some (s.time + millis i.shared.wmax), none, 0⟩ else s.window } := by
  have left : ((s.setChannel k c).setDrive k d).allOpen = false :=
    State.allOpen_eq_false (k := k) (by rwa [State.channel_setDrive, State.channel_setChannel, if_pos rfl])
  unfold State.windowFollows at window
  cases all : s.allOpen with
  | true => exact State.syncWindow_arms _ i image left (window.trans (by rw [all]; rfl))
  | false =>
    refine State.syncWindow_kept _ (left.trans ?_)
    show false = !s.window.armed
    rw [window, all]
    rfl

/-! ### The notice of a change (R113) -/

theorem PerChannel.get_set_same {α : Type} (p : PerChannel α) (k : ChannelId) (x : α) : (p.set k x).get k = x :=
  (PerChannel.get_set p k k x).trans (if_pos rfl)

theorem State.noticeContactor_of_channel {t : State} {k : ChannelId} {c : Channel} {role : Option Role}
    (channel : t.channels.get k = c) (played : t.role k = role) (before : ChannelState) (reason : ChangeReason) (load : Bool) :
    t.noticeContactor k before reason load =
      t.notifyAwake (.contactor k role before c.state reason c.stuck c.dropped c.welded load t.currentReport) := by
  subst channel played
  rfl

theorem State.notifyAwake_run {t : State} (run : t.sleep.op = .run) (n : Notice) : t.notifyAwake n = t.notify n := by
  unfold State.notifyAwake
  rw [run]

/-! ### A close request (R104) -/

section Close
variable (s : State) (k : ChannelId)

theorem State.closeAnswer_unready (h : s.sleep.op ≠ .run ∨ (s.channel k).settleExpiry ≠ none) :
    s.closeAnswer k = .refused := if_pos (by rwa [Option.isSome_iff_ne_none])

/-- R104: in RUN and past the reset settle, what the channel state answers. -/
theorem State.closeAnswer_ready (run : s.sleep.op = .run) (settled : (s.channel k).settleExpiry = none) :
    ((s.channel k).state = .opened → s.closeAnswer k = .taken) ∧
    ((s.channel k).state.isClosed = true → s.closeAnswer k = .already) ∧
    ((s.channel k).state = .dropout → s.closeAnswer k = .refused) := by
  unfold State.closeAnswer
  rw [if_neg (by simp [run, settled])]
  cases (s.channel k).state <;> simp [ChannelState.isClosed]

theorem State.closeRequest_kept (h : s.closeAnswer k ≠ .taken) : s.closeRequest k = s := by
  unfold State.closeRequest
  cases answer : s.closeAnswer k with
  | taken => exact absurd answer h
  | already => rfl
  | refused => rfl

/-- R104, R131: a close request in OPEN. -/
theorem State.closeRequest_taken (i : Image) (image : s.image = some i) (run : s.sleep.op = .run)
    (taken : s.closeAnswer k = .taken) (window : s.windowFollows) : s.closeRequest k = ({ s with
      channels := s.channels.set k { s.channel k with
        state := .pullIn, phaseExpiry := some (s.time + millis (i.channelProfile k).pullIn) }
      drives := s.drives.set k ⟨true, none⟩
      window :=
        if s.allOpen then ⟨true, some s.time, true, some (s.time + millis i.shared.wmax), none, 0⟩ else s.window }
      : State).notify (.contactor k (some (i.channelProfile k).role) .opened .pullIn .close (s.channel k).stuck
        (s.channel k).dropped (s.channel k).welded false s.currentReport) := by
  unfold State.closeRequest
  rw [taken, s.profile_of_image k image]
  dsimp only
  rw [s.syncWindow_leaving k _ _ i image ?leaves window]
  case leaves => nofun
  refine (State.noticeContactor_of_channel (PerChannel.get_set_same _ k _) ?role _ _ _).trans (State.notifyAwake_run ?op _)
  case role => exact s.role_of_image k image
  case op => exact run

end Close

/-- Settles O40: the answer by the state of the channel, and what follows from it. -/
theorem closeRequestsPullIn : Obligations.CloseRequestsPullIn := by
  intro s k
  have kept : ∀ answer, answer ≠ .taken → s.closeAnswer k = answer → s.closeAnswer k = answer ∧ s.closeRequest k = s :=
    fun answer other e => ⟨e, s.closeRequest_kept k (e ▸ other)⟩
  refine ⟨fun unready => kept _ nofun (s.closeAnswer_unready k unready), fun run settled => ?_⟩
  obtain ⟨opened, closed, dropout⟩ := s.closeAnswer_ready k run settled
  exact ⟨fun state => kept _ nofun (dropout state), fun state => kept _ nofun (closed state),
    fun i image state window => ⟨opened state, s.closeRequest_taken k i image run (opened state) window⟩⟩

/-! ### CONNECT (R118) -/

/-- R115: the channel of a role plays it. -/
theorem State.role_channelOf {s : State} {r : Role} {k : ChannelId} (h : s.channelOf r = some k) : s.role k = some r := by
  simpa using List.find?_some h

theorem State.closeRole_channel {s : State} {r : Role} {k : ChannelId} (h : s.channelOf r = some k) :
    s.closeRole r = s.closeRequest k := by
  unfold State.closeRole
  rw [h]

theorem ChannelId.any_all (p : ChannelId → Bool) : ChannelId.all.any p = true ↔ ∃ k, p k = true :=
  List.any_eq_true.trans ⟨fun ⟨k, _, h⟩ => ⟨k, h⟩, fun ⟨k, h⟩ => ⟨k, by cases k <;> simp [ChannelId.all], h⟩⟩

section Refusal
variable (s : State)

theorem State.connectRefusal_state (h : s.sleep.op ≠ .run ∨ s.sequencer.state ≠ .idle) : s.connectRefusal = some .state := by
  unfold State.connectRefusal
  split
  · rfl
  · next run => exact if_pos (h.resolve_left run)

/-- R118: the rows of the table that are asked in RUN and IDLE. -/
theorem State.connectRefusal_idle [Decidable (∃ k, (s.channel k).welded = true)]
    [Decidable (∃ k, (s.channel k).settleExpiry ≠ none)] (run : s.sleep.op = .run) (idle : s.sequencer.state = .idle) :
    s.connectRefusal =
      if s.inhibit ≠ [] then some .inhibited
      else if s.stream.state ≠ .live then some .current
      else if ∃ k, (s.channel k).welded = true then some .welded
      else if ∃ k, (s.channel k).settleExpiry ≠ none then some .settle
      else none := by
  unfold State.connectRefusal
  rw [if_neg (not_not.2 run), if_neg (not_not.2 idle)]
  simp only [ChannelId.any_all, List.isEmpty_iff, Option.isSome_iff_ne_none]

theorem State.taken_connectRefusal : s.taken.connectRefusal = s.connectRefusal := rfl

end Refusal

theorem exec_connect_refused (s : State) (tag : Byte) (ready : s.linkReady) (r : Reason)
    (h : s.connectRefusal = some r) :
    exec (.connect tag) s = .next (s.answered tag .refusedState (.reason r)) := by
  refine exec_request_eq (.connect tag) s rfl ready ?_
  show s.taken.requestConnect tag = _
  unfold State.requestConnect
  rw [s.taken_connectRefusal, h]
  exact s.taken_refuse ready tag .refusedState r

/-- R118: a CONNECT that is accepted, before the channel of NEG closes. -/
def State.connecting (s : State) (tag : Byte) : State :=
  ({ s with sequencer := { s.sequencer with state := .negClosing } } : State).answered tag .accepted .none

theorem exec_connect_accepted (s : State) (tag : Byte) (ready : s.linkReady) (k : ChannelId)
    (neg : s.channelOf .neg = some k) (h : s.connectRefusal = none) :
    exec (.connect tag) s = .next ((s.connecting tag).closeRequest k) := by
  refine exec_request_eq (.connect tag) s rfl ready ?_
  show s.taken.requestConnect tag = _
  unfold State.requestConnect
  rw [s.taken_connectRefusal, h]
  dsimp only
  rw [s.taken_reply ready]
  exact State.closeRole_channel neg

/-- Settles O42: the rows of R118 in their order, and the close of the channel of NEG. -/
theorem connectAnswers : Obligations.ConnectAnswers := by
  classical
  intro s tag ready
  have refused := exec_connect_refused s tag ready
  refine ⟨fun h => refused .state (s.connectRefusal_state h), fun run idle => ?_⟩
  have row := s.connectRefusal_idle run idle
  refine ⟨fun inhibited => refused _ (row.trans (if_pos inhibited)), fun empty => ?_, fun empty => ?_, fun empty => ?_,
    fun i k empty => ?_⟩
  all_goals
    rw [if_neg (not_not.2 empty)] at row
  · exact fun dead => refused _ (row.trans (if_pos dead))
  all_goals
    intro live
    rw [if_neg (not_not.2 live)] at row
  · exact fun welded => refused _ (row.trans (if_pos welded))
  all_goals
    intro sound
    rw [if_neg (fun ⟨k, h⟩ => Bool.eq_false_iff.1 (sound k) h)] at row
  · exact fun settling => refused _ (row.trans (if_pos settling))
  · intro settled image neg idleOpen window
    rw [if_neg (fun ⟨k, h⟩ => h (settled k))] at row
    have opened := idleOpen idle
    have role : (i.channelProfile k).role = .neg :=
      Option.some.inj ((s.role_of_image k image).symm.trans (State.role_channelOf neg))
    have closes := (s.connecting tag).closeRequest_taken k i image run
      (((s.connecting tag).closeAnswer_ready k run (settled k)).1 (opened k)) window
    rw [if_pos (show (s.connecting tag).allOpen = true from s.allOpen_iff.2 opened), role] at closes
    exact (exec_connect_accepted s tag ready k neg row).trans (congrArg Host.Outcome.next closes)

end Sys2Proof.Machine
end

section
/-! SUPPORT. The ends of the phases of a channel, its hold drive, and the judgement of its feedback. -/

namespace Sys2Proof.Machine

/-! ### A channel that is set -/

theorem PerChannel.set_set {α : Type} (p : PerChannel α) (k : ChannelId) (x y : α) : (p.set k x).set k y = p.set k y := by
  cases k <;> rfl

theorem State.setChannel_setChannel (s : State) (k : ChannelId) (c d : Channel) :
    (s.setChannel k c).setChannel k d = s.setChannel k d :=
  congrArg (fun channels => ({ s with channels := channels } : State)) (PerChannel.set_set s.channels k c d)

theorem State.channel_setChannel_same (s : State) (k : ChannelId) (c : Channel) : (s.setChannel k c).channel k = c :=
  PerChannel.get_set_same s.channels k c

/-- R131: the window follows the channel states, whatever else of a channel changes. -/
theorem State.windowFollows_setChannel {s : State} {k : ChannelId} {c : Channel} (same : c.state = (s.channel k).state)
    (window : s.windowFollows) : (s.setChannel k c).windowFollows := by
  have states : ∀ j, ((s.setChannel k c).channel j).state = (s.channel j).state := fun j => by
    rw [State.channel_setChannel]
    split
    · next here => rw [here, same]
    · rfl
  have all : (s.setChannel k c).allOpen = s.allOpen := by
    rw [Bool.eq_iff_iff, State.allOpen_iff, State.allOpen_iff]
    simp only [states]
  unfold State.windowFollows
  rw [all]
  exact window

section Changes
variable (s : State) (k : ChannelId)

/-! ### The notice of a channel that has changed (R113) -/

theorem State.noticeContactor_set (c : Channel) (before : ChannelState) (reason : ChangeReason) (load : Bool) :
    (s.setChannel k c).noticeContactor k before reason load = (s.setChannel k c).notifyAwake
      (.contactor k (s.role k) before c.state reason c.stuck c.dropped c.welded load s.currentReport) :=
  State.noticeContactor_of_channel (PerChannel.get_set_same s.channels k c) rfl before reason load

theorem State.noticeContactor_synced (c : Channel) (before : ChannelState) (reason : ChangeReason) (load : Bool) :
    (s.setChannel k c).syncWindow.noticeContactor k before reason load = (s.setChannel k c).syncWindow.notifyAwake
      (.contactor k (s.role k) before c.state reason c.stuck c.dropped c.welded load s.currentReport) := by
  obtain ⟨w, e⟩ := (s.setChannel k c).syncWindow_frame
  rw [e]
  exact State.noticeContactor_of_channel (PerChannel.get_set_same s.channels k c) rfl before reason load

/-- R107, R109, R110: a fault that ends in DROPOUT. -/
theorem State.dropoutFault_closed (f : FaultKind) (reason : ChangeReason) (mark : Channel → Channel) (i : Image)
    (image : s.image = some i) (closed : (s.channel k).state.isClosed = true) (window : s.windowFollows) :
    s.dropoutFault k f reason mark = (((s.setChannel k { mark (s.channel k) with
      state := .dropout, phaseExpiry := some (s.time + millis (i.channelProfile k).dropout)
      lastFault := some ⟨f, s.time, (s.channel k).state, s.currentReport⟩ }).setDrive k .off).notifyAwake
        (.contactor k (s.role k) (s.channel k).state .dropout reason (mark (s.channel k)).stuck (mark (s.channel k)).dropped
          (mark (s.channel k)).welded false s.currentReport)).reportFault k f reason := by
  unfold State.dropoutFault
  dsimp only
  rw [s.enterDropout_closed k _ i image closed window, State.noticeContactor_changed]
  rfl

/-! ### The hold drive (R106) -/

theorem State.startPwm_of_image (i : Image) (image : s.image = some i) : s.startPwm k = s.setDrive k
    ⟨true, some ⟨s.time, (i.channelProfile k).period, (i.channelProfile k).period * Image.dutyOf i k / 100⟩⟩ := by
  unfold State.startPwm
  rw [image]

theorem State.pwmPeriodDue_of_pwm (p : PwmPeriod) (pwm : (s.drives.get k).pwm = some p) :
    s.pwmPeriodDue k = reached (p.start + micros p.period) s.time := by
  unfold State.pwmPeriodDue
  rw [pwm]

theorem State.pwmStep_period (hold : (s.channel k).state = .hold) (ended : s.pwmPeriodDue k = true) :
    s.pwmStep k = s.startPwm k := (if_pos hold).trans (if_pos ended)

/-- R106: at the end of the on-time the drive goes off. -/
theorem State.pwmStep_off (p : PwmPeriod) (hold : (s.channel k).state = .hold) (drive : s.drives.get k = ⟨true, some p⟩)
    (short : p.onTime < p.period) (ended : reached (p.start + micros p.onTime) s.time = true)
    (runs : s.pwmPeriodDue k = false) : s.pwmStep k = s.setDrive k ⟨false, some p⟩ := by
  have off : s.pwmOffDue k = true := by
    unfold State.pwmOffDue
    rw [drive]
    simp [short, ended]
  unfold State.pwmStep
  rw [if_pos hold, if_neg (Bool.eq_false_iff.1 runs), if_pos off, drive]

/-! ### The end of PULL_IN (R107) -/

theorem State.pullInEnds_holds (i : Image) (image : s.image = some i) (closed : (s.channel k).debouncedClosed = true) :
    s.pullInEnds k = ((((s.setChannel k { s.channel k with state := .hold, phaseExpiry := none }).setDrive k
      ⟨true, some ⟨s.time, (i.channelProfile k).period, (i.channelProfile k).period * Image.dutyOf i k / 100⟩⟩).notifyAwake
        (.contactor k (s.role k) .pullIn .hold .pullInEnd (s.channel k).stuck (s.channel k).dropped (s.channel k).welded false
          s.currentReport)).sequencerReport k .pullInEnd none) := by
  unfold State.pullInEnds
  dsimp only
  rw [if_pos closed, State.startPwm_of_image (s.setChannel k _) k i image, State.noticeContactor_changed]
  rfl

theorem State.pullInEnds_stuck (opened : (s.channel k).debouncedClosed = false) :
    s.pullInEnds k = s.dropoutFault k .stuck .stuck fun c => { c with stuck := true } :=
  if_neg (Bool.eq_false_iff.1 opened)

/-! ### The end of DROPOUT (R108) -/

/-- R108: the feedback is open, or its weld is known. -/
theorem State.dropoutEnds_opens (h : (s.channel k).debouncedClosed = false ∨ (s.channel k).welded = true) :
    s.dropoutEnds k = (((s.setChannel k { s.channel k with
      state := .opened, phaseExpiry := none, stuck := false, dropped := false
      welded := (s.channel k).debouncedClosed }).syncWindow).notifyAwake
        (.contactor k (s.role k) .dropout .opened .dropoutEnd false false (s.channel k).debouncedClosed false
          s.currentReport)).sequencerReport k .dropoutEnd none := by
  unfold State.dropoutEnds
  dsimp only
  rw [if_neg (by rcases h with h | h <;> simp [h]), State.noticeContactor_synced]

theorem State.dropoutEnds_welds (closed : (s.channel k).debouncedClosed = true) (sound : (s.channel k).welded = false) :
    s.dropoutEnds k = (((s.setChannel k { s.channel k with
      state := .opened, phaseExpiry := none, stuck := false, dropped := false, welded := true
      lastFault := some ⟨.welded, s.time, .dropout, s.currentReport⟩ }).syncWindow).notifyAwake
        (.contactor k (s.role k) .dropout .opened .dropoutEnd false false true false
          s.currentReport)).reportFault k .welded .dropoutEnd := by
  unfold State.dropoutEnds
  dsimp only
  rw [if_pos (by simp [closed, sound]), State.noticeContactor_synced]
  rfl

end Changes

/-- Settles O35: the phases by the feedback that ends them, the hold drive by its instants, and the window. -/
theorem channelPhasesEnd : Obligations.ChannelPhasesEnd := by
  refine ⟨fun s k i held image => ⟨fun due state expiry ended => ?_, fun due state expiry ended => ?_, fun p hold pwm => ?_⟩,
    fun s window e => ?_⟩
  · have ends : exec (.pullInExpiry k) s = .next (s.pullInEnds k) :=
      exec_pullInExpiry s k held (by simp [State.pullInDue, state, expired, expiry, ended])
    have role := s.role_of_image k image
    refine ⟨fun closed => ?_, fun opened window => ?_⟩
    · rw [ends, s.pullInEnds_holds k i image closed, role]
      rfl
    · rw [ends, s.pullInEnds_stuck k opened,
        s.dropoutFault_closed k .stuck .stuck _ i image (by rw [state]; rfl) window, role, state]
      rfl
  · have ends : exec (.dropoutExpiry k) s = .next (s.dropoutEnds k) :=
      exec_dropoutExpiry s k held (by simp [State.dropoutDue, state, expired, expiry, ended])
    rw [← s.role_of_image k image]
    exact ⟨fun h => ends.trans (congrArg Host.Outcome.next (s.dropoutEnds_opens k h)),
      fun closed sound => ends.trans (congrArg Host.Outcome.next (s.dropoutEnds_welds k closed sound))⟩
  · have steps : s.pwmDue k = true → exec (.holdPwmPeriod k) s = .next (s.pwmStep k) := exec_holdPwmPeriod s k held
    have period := s.pwmPeriodDue_of_pwm k p pwm
    refine ⟨fun ended => ?_, fun runs on short ended => ?_⟩
    · rw [steps ((s.pwmDue_iff k).2 ⟨hold, p, pwm, .inl ended⟩), s.pwmStep_period k hold (period.trans ended),
        s.startPwm_of_image k i image]
      rfl
    · have drive : s.drives.get k = ⟨true, some p⟩ := by rw [← on, ← pwm]
      rw [steps ((s.pwmDue_iff k).2 ⟨hold, p, pwm, .inr ⟨on, short, ended⟩⟩),
        s.pwmStep_off k p hold drive short ended (period.trans runs)]
      rfl
  · subst e
    exact ⟨s.syncWindow_disarms, s.allOpen_iff, s.syncWindow_kept, s.syncWindow_arms, fun _ _ => rfl⟩

/-! ### The feedback of a channel (R102) -/

section Feedback
variable (s : State) (k : ChannelId)

theorem State.debounce_of_image (i : Image) (image : s.image = some i) : s.debounce k = (i.channelProfile k).debounce := by
  unfold State.debounce
  rw [s.profile_of_image k image]

/-- R100, R113: while UNCONFIGURED. -/
theorem State.debounce_role_unconfigured (image : s.image = none) : s.debounce k = 15 ∧ s.role k = none := by
  unfold State.debounce State.profile State.role
  rw [image]
  exact ⟨rfl, rfl⟩

theorem State.feedbackChanges_eq (u : State) (closed : Bool) (held : s.held = false)
    (hu : u = { s with pins := { s.pins with kfb := s.pins.kfb.set k closed } }) :
    s.feedbackChanges k closed = if s.oscillator then u.takeRaw k closed else u := by
  subst hu
  refine State.unlessHeld_eq _ ?held
  exact held

theorem State.takeRaw_same : s.takeRaw k (s.channel k).rawClosed = s := if_pos rfl

/-- R102: a level that the raw feedback has not got yet. -/
theorem State.takeRaw_new (closed : Bool) (new : closed ≠ (s.channel k).rawClosed) :
    s.takeRaw k closed = s.setChannel k { s.channel k with
      rawClosed := closed
      debounceExpiry := if closed = (s.channel k).debouncedClosed then none else some (s.time + millis (s.debounce k)) } :=
  if_neg new

/-! ### The judgement of the feedback (R109) -/

theorem State.weldInOpen_kept (welded : (s.channel k).welded = true) : s.weldInOpen k = s := if_pos welded

theorem State.weldInOpen_sets (sound : (s.channel k).welded = false) (opened : (s.channel k).state = .opened) :
    s.weldInOpen k = ((s.setChannel k { s.channel k with
      welded := true, lastFault := some ⟨.welded, s.time, .opened, s.currentReport⟩ }).notifyAwake
        (.contactor k (s.role k) .opened .opened .feedback (s.channel k).stuck (s.channel k).dropped true false
          s.currentReport)).reportFault k .welded .feedback := by
  unfold State.weldInOpen
  dsimp only
  rw [if_neg (Bool.eq_false_iff.1 sound), State.noticeContactor_set, opened]
  rfl

theorem State.unweldInOpen_kept (sound : (s.channel k).welded = false) : s.unweldInOpen k = s :=
  if_neg (Bool.eq_false_iff.1 sound)

theorem State.unweldInOpen_clears (welded : (s.channel k).welded = true) (opened : (s.channel k).state = .opened) :
    s.unweldInOpen k = ((s.setChannel k { s.channel k with welded := false }).notifyAwake
      (.contactor k (s.role k) .opened .opened .feedback (s.channel k).stuck (s.channel k).dropped false false
        s.currentReport)).sequencerReport k .feedback none := by
  unfold State.unweldInOpen
  dsimp only
  rw [if_pos welded, State.noticeContactor_set, opened]

/-- R109: what a change of the debounced feedback brings, by the channel state. -/
theorem State.judgeFeedback_eq (c : Channel) (channel : s.channel k = c) :
    (c.state = .pullIn ∨ c.state = .dropout → s.judgeFeedback k = s) ∧
    (c.state = .hold → c.debouncedClosed = true → s.judgeFeedback k = s) ∧
    (c.state = .hold → c.debouncedClosed = false →
      s.judgeFeedback k = s.dropoutFault k .dropped .dropped fun c => { c with dropped := true }) ∧
    (c.state = .opened → c.debouncedClosed = true → s.judgeFeedback k = s.weldInOpen k) ∧
    (c.state = .opened → c.debouncedClosed = false → s.judgeFeedback k = s.unweldInOpen k) := by
  subst channel
  unfold State.judgeFeedback
  dsimp only
  refine ⟨?_, fun state feedback => ?_, fun state feedback => ?_, fun state feedback => ?_, fun state feedback => ?_⟩
  · rintro (state | state) <;> rw [state]
  all_goals rw [state, feedback]

section Debounced
variable (c : Channel)

/-- R109: the loss of the feedback in HOLD. -/
theorem State.judgeFeedback_drops (i : Image) (image : s.image = some i) (same : c.state = (s.channel k).state)
    (hold : c.state = .hold) (opened : c.debouncedClosed = false) (window : s.windowFollows) :
    (s.setChannel k c).judgeFeedback k = (((s.setChannel k { c with
      state := .dropout, phaseExpiry := some (s.time + millis (i.channelProfile k).dropout), dropped := true
      lastFault := some ⟨.dropped, s.time, .hold, s.currentReport⟩ }).setDrive k .off).notifyAwake
        (.contactor k (s.role k) .hold .dropout .dropped c.stuck true c.welded false s.currentReport)).reportFault
          k .dropped .dropped := by
  have channel := s.channel_setChannel_same k c
  obtain ⟨_, _, drops, _⟩ := State.judgeFeedback_eq _ k c channel
  rw [drops hold opened, (s.setChannel k c).dropoutFault_closed k .dropped .dropped _ i image (by rw [channel, hold]; rfl)
    (State.windowFollows_setChannel same window), channel, State.setChannel_setChannel, hold]
  rfl

/-- R109: the end of the feedback in OPEN clears WELDED. -/
theorem State.judgeFeedback_unwelds (state : c.state = .opened) (opened : c.debouncedClosed = false) :
    (c.welded = false → (s.setChannel k c).judgeFeedback k = s.setChannel k c) ∧
    (c.welded = true → (s.setChannel k c).judgeFeedback k = ((s.setChannel k { c with welded := false }).notifyAwake
      (.contactor k (s.role k) .opened .opened .feedback c.stuck c.dropped false false s.currentReport)).sequencerReport
        k .feedback none) := by
  have channel := s.channel_setChannel_same k c
  obtain ⟨_, _, _, _, unwelds⟩ := State.judgeFeedback_eq _ k c channel
  rw [unwelds state opened]
  refine ⟨fun sound => State.unweldInOpen_kept _ k (by rw [channel, sound]), fun welded => ?_⟩
  rw [State.unweldInOpen_clears _ k (by rw [channel, welded]) (by rw [channel, state]), channel, State.setChannel_setChannel]
  rfl

/-! ### The end of the debounce and of the reset settle (R102, R103) -/

/-- R103: during the reset settle the debounced feedback is not judged. -/
theorem State.debounceEnds_settling (hc : c = { s.channel k with
      debouncedClosed := (s.channel k).rawClosed, debounceExpiry := none })
    (settling : (s.channel k).settleExpiry ≠ none) : s.debounceEnds k = s.setChannel k c := by
  subst hc
  exact if_pos (by simp [Option.isSome_iff_ne_none, settling])

theorem State.debounceEnds_judged (hc : c = { s.channel k with
      debouncedClosed := (s.channel k).rawClosed, debounceExpiry := none })
    (settled : (s.channel k).settleExpiry = none) (new : (s.channel k).rawClosed ≠ (s.channel k).debouncedClosed) :
    s.debounceEnds k = (s.setChannel k c).judgeFeedback k := by
  subst hc
  exact if_neg (by simp [settled, new])

end Debounced

/-- R103: at the end of the reset settle a closed feedback of an OPEN channel is judged. -/
theorem State.settleEnds_eq : s.settleEnds k =
    if (s.channel k).debouncedClosed = true ∧ (s.channel k).state = .opened
    then (s.setChannel k { s.channel k with settleExpiry := none }).weldInOpen k
    else s.setChannel k { s.channel k with settleExpiry := none } := by
  unfold State.settleEnds
  simp only [Bool.and_eq_true, beq_iff_eq]

end Feedback

/-- Settles O36: the level that is sampled, the debounced feedback by the channel state, and the end of the settle. -/
theorem feedbackIsJudged : Obligations.FeedbackIsJudged := by
  intro s k debounce role held configured unconfigured
  obtain ⟨rfl, rfl⟩ : debounce = s.debounce k ∧ role = s.role k := by
    cases image : s.image with
    | none =>
      obtain ⟨d, r⟩ := s.debounce_role_unconfigured k image
      rw [d, r]
      exact unconfigured image
    | some i =>
      rw [s.debounce_of_image k i image, s.role_of_image k image]
      exact configured i image
  refine ⟨?level, ?debounced, ?settled, s.weldInOpen_kept k, s.weldInOpen_sets k⟩
  case level =>
    intro closed u hu
    have changes : exec (.feedbackChange k closed) s = .next (if s.oscillator then u.takeRaw k closed else u) :=
      congrArg Host.Outcome.next (s.feedbackChanges_eq k u closed held hu)
    have channel : u.channel k = s.channel k := by rw [hu]; rfl
    refine ⟨?_, fun oscillator new => ?_⟩
    · rintro (stopped | same)
      · rw [changes, stopped]
        rfl
      · rw [changes, same, ← channel, u.takeRaw_same k, ite_self]
    · rw [changes, if_pos oscillator, u.takeRaw_new k closed (channel ▸ new), channel, hu]
      rfl
  case debounced =>
    intro due u c expiry ended hc hu new
    obtain rfl : u = s.setChannel k c := hu
    have ends : exec (.debounceExpiry k) s = .next (s.debounceEnds k) :=
      exec_debounceExpiry s k held ((expired_iff _ _).2 ⟨due, expiry, ended⟩)
    have same : c.state = (s.channel k).state := by rw [hc]
    rw [← same]
    have judged : ∀ {t}, (s.channel k).settleExpiry = none → (s.setChannel k c).judgeFeedback k = t →
        exec (.debounceExpiry k) s = .next t := fun settled e =>
      ends.trans (congrArg Host.Outcome.next ((s.debounceEnds_judged k c hc settled new).trans e))
    obtain ⟨moving, stays, _, welds, _⟩ := State.judgeFeedback_eq _ k c (s.channel_setChannel_same k c)
    refine ⟨fun h => ?_, fun settled hold closed => judged settled (stays hold closed),
      fun i image settled hold opened window => judged settled (s.judgeFeedback_drops k c i image same hold opened window),
      fun settled state closed => judged settled (welds state closed), fun settled state opened => ?_⟩
    · by_cases settled : (s.channel k).settleExpiry = none
      · exact judged settled (moving (h.resolve_left (not_not.2 settled)))
      · exact ends.trans (congrArg Host.Outcome.next (s.debounceEnds_settling k c hc settled))
    · obtain ⟨kept, clears⟩ := s.judgeFeedback_unwelds k c state opened
      exact ⟨fun sound => judged settled (kept sound), fun welded => judged settled (clears welded)⟩
  case settled =>
    rintro due u expiry ended rfl
    have ends : exec (.settleExpiry k) s = .next (s.settleEnds k) :=
      exec_settleExpiry s k held ((expired_iff _ _).2 ⟨due, expiry, ended⟩)
    rw [ends, s.settleEnds_eq k]
    exact ⟨fun h => congrArg Host.Outcome.next (if_pos h), fun h => congrArg Host.Outcome.next (if_neg h)⟩

end Sys2Proof.Machine
end

section
/-! SUPPORT. What every move, the removal of a cause and a reset make of the channels: the window, the idle Sequencer and the
drives that follow them, and no close while a cause inhibits reclosing. -/

namespace Sys2Proof.Machine

/-! ### What the moves that do not bear on the contactors leave of them -/

/-- The channels, their drives, the Sequencer, the reclose inhibit set and the window stand as they did. -/
structure State.ContactorsKept (s t : State) : Prop where
  channels  : t.channels = s.channels
  drives    : t.drives = s.drives
  sequencer : t.sequencer = s.sequencer
  inhibit   : t.inhibit = s.inhibit
  window    : t.window = s.window

theorem State.contactorsKept_of_guarded {s t : State} (h : t.guarded = s.guarded) : s.ContactorsKept t := by
  simp only [State.guarded, Prod.mk.injEq] at h
  obtain ⟨channels, drives, sequencer, inhibit, window, _⟩ := h
  exact ⟨channels, drives, sequencer, inhibit, window⟩

theorem State.placeRound_contactorsKept (s : State) (r : RoundRecord) : s.ContactorsKept (s.placeRound r) := by
  obtain ⟨_, _, h⟩ := s.placeRound_frame r
  rw [h]
  exact ⟨rfl, rfl, rfl, rfl, rfl⟩

theorem State.ContactorsKept.channel {s t : State} (h : s.ContactorsKept t) (k : ChannelId) : t.channel k = s.channel k :=
  congrArg (fun channels => channels.get k) h.channels

@[simp] theorem State.syncWindow_channel (s : State) (k : ChannelId) : s.syncWindow.channel k = s.channel k := by
  obtain ⟨w, h⟩ := s.syncWindow_frame
  rw [h]
  rfl

@[simp] theorem State.syncWindow_channels (s : State) : s.syncWindow.channels = s.channels := by
  obtain ⟨w, h⟩ := s.syncWindow_frame
  rw [h]

@[simp] theorem State.syncWindow_drives (s : State) : s.syncWindow.drives = s.drives := by
  obtain ⟨w, h⟩ := s.syncWindow_frame
  rw [h]

@[simp] theorem State.syncWindow_sequencer (s : State) : s.syncWindow.sequencer = s.sequencer := by
  obtain ⟨w, h⟩ := s.syncWindow_frame
  rw [h]

@[simp] theorem State.syncWindow_inhibit (s : State) : s.syncWindow.inhibit = s.inhibit := by
  obtain ⟨w, h⟩ := s.syncWindow_frame
  rw [h]

/-! ### The window follows the channels (R131) -/

theorem State.allOpen_congr {s t : State} (h : ∀ k, (t.channel k).state = (s.channel k).state) : t.allOpen = s.allOpen := by
  rw [Bool.eq_iff_iff, State.allOpen_iff, State.allOpen_iff]
  simp only [h]

theorem State.windowFollows_congr {s t : State} (channels : ∀ k, (t.channel k).state = (s.channel k).state)
    (armed : t.window.armed = s.window.armed) (h : s.windowFollows) : t.windowFollows := by
  unfold State.windowFollows
  rw [armed, State.allOpen_congr channels]
  exact h

/-- R131: the window follows the channels wherever it is made to. -/
theorem State.syncWindow_follows (s : State) : s.syncWindow.windowFollows := by
  unfold State.windowFollows State.syncWindow
  cases all : s.allOpen <;> cases armed : s.window.armed
  · exact congrArg Bool.not all.symm
  · exact armed.trans (congrArg Bool.not all.symm)
  · exact armed.trans (congrArg Bool.not all.symm)
  · exact congrArg Bool.not all.symm

theorem Move.windowFollows {s t : State} (m : Move s t) (h : s.windowFollows) : t.windowFollows := by
  have same : ∀ {t : State}, s.ContactorsKept t → t.windowFollows := fun kept =>
    State.windowFollows_congr (fun k => congrArg Channel.state (kept.channel k)) (congrArg Window.armed kept.window) h
  cases m with
  | quiet g => exact same (State.contactorsKept_of_guarded g)
  | place r => exact same (s.placeRound_contactorsKept r)
  | channels cs states => exact State.windowFollows_congr states rfl h
  | pullIn => exact State.syncWindow_follows _
  | dropout => exact State.syncWindow_follows _
  | opened => exact State.syncWindow_follows _
  | hold k c hold pullIn =>
    have before : s.allOpen = false := State.allOpen_eq_false (k := k) (by rw [pullIn]; nofun)
    have after : (s.setChannel k c).allOpen = false :=
      State.allOpen_eq_false (k := k) (by rw [State.channel_setChannel_same, hold]; nofun)
    unfold State.windowFollows at h ⊢
    rw [after, ← before]
    exact h
  | window w armed => exact State.windowFollows_congr (s := s) (fun _ => rfl) armed h
  | pwm => exact State.windowFollows_congr (s := s) (fun _ => rfl) rfl h
  | sequencer => exact State.windowFollows_congr (s := s) (fun _ => rfl) rfl h
  | inhibit => exact State.windowFollows_congr (s := s) (fun _ => rfl) rfl h
  | _ => exact same ⟨rfl, rfl, rfl, rfl, rfl⟩

/-! ### The Sequencer is IDLE with every channel OPEN alone (R117) -/

theorem Move.idleIsOpen {s t : State} (m : Move s t) (h : s.idleIsOpen) : t.idleIsOpen := by
  have same : ∀ {t : State}, s.ContactorsKept t → t.idleIsOpen := fun kept idle k => by
    rw [kept.channel k]
    exact h (kept.sequencer ▸ idle) k
  cases m with
  | quiet g => exact same (State.contactorsKept_of_guarded g)
  | place r => exact same (s.placeRound_contactorsKept r)
  | channels cs states => exact fun idle k => (states k).trans (h idle k)
  | pullIn k c _ _ _ notIdle => exact fun idle => absurd (by simpa using idle) notIdle
  | hold k c _ pullIn =>
    intro idle
    have opened := h idle k
    rw [pullIn] at opened
    cases opened
  | dropout k c _ closed =>
    intro idle
    have opened := h (by simpa using idle) k
    rw [opened] at closed
    cases closed
  | opened k c opened _ =>
    intro idle j
    rw [State.syncWindow_channel, State.channel_setChannel]
    split
    · exact opened
    · exact h (by simpa using idle) j
  | sequencer q becomes => exact fun idle => (becomes idle).elim s.allOpen_iff.1 h
  | pwm => exact h
  | window => exact h
  | inhibit => exact h
  | _ => exact same ⟨rfl, rfl, rfl, rfl, rfl⟩

/-! ### The drives (6.3) -/

/-- 6.3: a channel that is set with its drive. -/
theorem State.drivesFollow_setDrive {s t : State} {k : ChannelId} {c : Channel} {d : Drive}
    (channels : t.channels = s.channels.set k c) (drives : t.drives = s.drives.set k d) (driven : c.state.drivenBy d)
    (h : s.drivesFollow) : t.drivesFollow := by
  intro j
  unfold State.channel
  rw [channels, drives, PerChannel.get_set, PerChannel.get_set]
  split
  · exact driven
  · exact h j

/-- 6.3: a channel that is set, its drive staying as it is. -/
theorem State.drivesFollow_setChannel {s t : State} {k : ChannelId} {c : Channel}
    (channels : t.channels = s.channels.set k c) (drives : t.drives = s.drives) (driven : c.state.drivenBy (s.drives.get k))
    (h : s.drivesFollow) : t.drivesFollow :=
  State.drivesFollow_setDrive channels (drives.trans (by cases k <;> rfl)) driven h

theorem Move.drivesFollow {s t : State} (m : Move s t) (h : s.drivesFollow) : t.drivesFollow := by
  have same : ∀ {t : State}, s.ContactorsKept t → t.drivesFollow := fun kept k => by
    rw [kept.channel k, kept.drives]
    exact h k
  cases m with
  | quiet g => exact same (State.contactorsKept_of_guarded g)
  | place r => exact same (s.placeRound_contactorsKept r)
  | channels cs states => exact fun k => (congrArg (fun x => ChannelState.drivenBy x (s.drives.get k)) (states k)).mpr (h k)
  | pullIn k c pullIn =>
    exact State.drivesFollow_setDrive (c := c) (State.syncWindow_channels _) (State.syncWindow_drives _) (by rw [pullIn]; rfl) h
  | hold k c hold => exact State.drivesFollow_setChannel (c := c) rfl rfl (by rw [hold]; trivial) h
  | pwm k d hold =>
    exact State.drivesFollow_setDrive (c := s.channel k) (by cases k <;> rfl) rfl (by rw [hold]; trivial) h
  | dropout k c dropout =>
    exact State.drivesFollow_setDrive (c := c) (State.syncWindow_channels _) (State.syncWindow_drives _) (by rw [dropout]; rfl) h
  | opened k c opened dropout =>
    have off := h k
    rw [dropout] at off
    exact State.drivesFollow_setChannel (c := c) (State.syncWindow_channels _) (State.syncWindow_drives _)
      (by rw [opened]; exact off) h
  | window => exact h
  | sequencer => exact h
  | inhibit => exact h
  | _ => exact same ⟨rfl, rfl, rfl, rfl, rfl⟩

/-- Settles O4: each of the three by the moves, the removal of a cause and the reset. -/
theorem channelInvariantsHold : Obligations.ChannelInvariantsHold := by
  refine ⟨fun s t h e => ?_, fun s t h e => ?_, fun s t h e => ?_⟩
  · refine step_keeps (P := State.windowFollows) (fun _ _ m => m.windowFollows) (fun _ _ _ p => p) (fun s t r _ => ?_) e h
    unfold State.windowFollows
    rw [t.allOpen_iff.2 r.opened, r.window]
    rfl
  · exact step_keeps (P := State.idleIsOpen) (fun _ _ m => m.idleIsOpen) (fun _ _ _ p => p) (fun _ _ r _ _ => r.opened) e h
  · refine step_keeps (P := State.drivesFollow) (fun _ _ m => m.drivesFollow) (fun _ _ _ p => p) (fun s t r _ k => ?_) e h
    rw [r.opened k, r.drives]
    cases k <;> rfl

/-! ### No channel closes while a cause inhibits reclosing (R129) -/

/-- A cause inhibits reclosing, and the channel is OPEN. -/
def State.keptOpen (s : State) (k : ChannelId) : Prop := s.inhibit ≠ [] ∧ (s.channel k).state = .opened

/-- R129: no move takes a channel out of OPEN while the set holds a cause, and none removes one. -/
theorem Move.keptOpen {s t : State} (m : Move s t) (k : ChannelId) (h : s.keptOpen k) : t.keptOpen k := by
  have same : ∀ {t : State}, s.ContactorsKept t → t.keptOpen k := fun kept => by
    unfold State.keptOpen
    rw [kept.inhibit, kept.channel k]
    exact h
  obtain ⟨inhibited, opened⟩ := h
  have others : ∀ {t : State} {j : ChannelId} {c : Channel}, t.inhibit = s.inhibit →
      t.channel k = (s.setChannel j c).channel k → (k = j → c.state = .opened) → t.keptOpen k := by
    intro t j c inhibit channel stays
    refine ⟨inhibit ▸ inhibited, ?_⟩
    rw [channel, State.channel_setChannel]
    split
    · exact stays ‹_›
    · exact opened
  cases m with
  | quiet g => exact same (State.contactorsKept_of_guarded g)
  | place r => exact same (s.placeRound_contactorsKept r)
  | channels cs states => exact ⟨inhibited, (states k).trans opened⟩
  | pullIn _ _ _ _ empty => exact absurd empty inhibited
  | hold j c _ pullIn =>
    refine others rfl rfl fun e => ?_
    rw [← e, opened] at pullIn
    cases pullIn
  | dropout j c _ closed =>
    refine others (State.syncWindow_inhibit _) (State.syncWindow_channel _ k) fun e => ?_
    rw [← e, opened] at closed
    cases closed
  | opened j c state _ => exact others (State.syncWindow_inhibit _) (State.syncWindow_channel _ k) fun _ => state
  | inhibit c _ => exact ⟨List.append_ne_nil_of_left_ne_nil inhibited _, opened⟩
  | pwm => exact ⟨inhibited, opened⟩
  | window => exact ⟨inhibited, opened⟩
  | sequencer => exact ⟨inhibited, opened⟩
  | _ => exact same ⟨rfl, rfl, rfl, rfl, rfl⟩

/-- R129, R130: what a command does short of a reset; ACK_TRIP may empty the set, and then no channel moves. -/
theorem Changed.opened {s t : State} (h : Changed s t) (k : ChannelId) (kept : s.keptOpen k) :
    (t.channel k).state = .opened := by
  rcases h with moves | ⟨u, l, before, _, _, states⟩
  · exact (moves.keeps (P := fun s => s.keptOpen k) (fun _ _ m => m.keptOpen k) kept).2
  · exact (states k).trans (before.keeps (P := fun s => s.keptOpen k) (fun _ _ m => m.keptOpen k) kept).2

/-- Settles O5: the moves and ACK_TRIP keep an OPEN channel OPEN, and a reset opens every channel. -/
theorem noChannelClosesWhileInhibited : Obligations.NoChannelClosesWhileInhibited := by
  intro s t k inhibited opened e
  rcases step_stepped s t e with changed | ⟨_, _, resets⟩
  · exact changed.opened k ⟨inhibited, opened⟩
  · exact resets.opened k

end Sys2Proof.Machine
end

section
/-! SUPPORT. Requests about the AUX channel and the reclose inhibit set: AUX_CLOSE, AUX_OPEN and ACK_TRIP. -/

namespace Sys2Proof.Machine

/-! ### An answer among the effects of its event (entry 3) -/

/-- No rule orders the answer of a request that has been taken and one other effect of it. -/
theorem State.taken_anyOrder_reply (s u : State) (ready : s.linkReady) (hu : u = { s with free := s.free + 2 }) (tag : Byte)
    (status : ReplyStatus) (result : ResultData) (f : State → State) :
    s.taken.anyOrder [fun t => t.reply tag status result, f] = f (u.answered tag status result) ∨
    s.taken.anyOrder [fun t => t.reply tag status result, f] = (f u.taken).reply tag status result := by
  subst hu
  rw [← State.taken_reply _ (show State.linkReady { s with free := s.free + 2 } from ready)]
  exact s.taken.anyOrder_two _ f

/-! ### AUX_CLOSE and AUX_OPEN (R127) -/

section Aux
variable (s : State) (tag : Byte)

theorem State.requestAuxClose_outside (h : s.sequencer.state ≠ .connected) :
    s.requestAuxClose tag = s.refuse tag .refusedState .state := if_pos h

theorem State.requestAuxClose_inhibited (connected : s.sequencer.state = .connected) (h : s.inhibit ≠ []) :
    s.requestAuxClose tag = s.refuse tag .refusedState .inhibited :=
  (if_neg (not_not.2 connected)).trans (if_pos (by rwa [List.isEmpty_iff]))

/-- R127: with an empty set in CONNECTED, the answer follows the driver's. -/
theorem State.requestAuxClose_asks (connected : s.sequencer.state = .connected) (empty : s.inhibit = []) (k : ChannelId)
    (aux : s.channelOf .aux = some k) :
    (s.closeAnswer k = .already → s.requestAuxClose tag = s.reply tag .done .none) ∧
    (s.closeAnswer k = .refused → s.requestAuxClose tag = s.reply tag .busy .none) ∧
    (s.closeAnswer k = .taken → s.requestAuxClose tag =
      s.anyOrder [fun s => s.reply tag .done .none, fun s => s.closeRequest k]) := by
  unfold State.requestAuxClose
  rw [if_neg (not_not.2 connected), if_neg (by rw [empty]; decide), aux]
  dsimp only
  refine ⟨fun answer => ?_, fun answer => ?_, fun answer => ?_⟩ <;> rw [answer]

theorem State.requestAuxOpen_none (h : s.closedOf [.aux] = []) :
    s.requestAuxOpen tag = ({ s with free := s.free + 1 } : State).reply tag .done .none := by
  unfold State.requestAuxOpen
  rw [h]
  exact s.anyOrder_one _

theorem State.requestAuxOpen_one (k : ChannelId) (h : s.closedOf [.aux] = [k]) : s.requestAuxOpen tag =
    s.anyOrder [fun s => s.reply tag .done .none, fun s => s.openRequest k .sequencer none] := by
  unfold State.requestAuxOpen
  rw [h]
  rfl

end Aux

/-- Settles O44: the refusals of AUX_CLOSE and the answer of the driver, and the closed AUX channel of AUX_OPEN. -/
theorem auxAnswers : Obligations.AuxAnswers := by
  intro s tag ready
  have closes : ∀ {t}, s.taken.requestAuxClose tag = t → exec (.auxClose tag) s = .next t :=
    fun e => exec_request_eq (.auxClose tag) s rfl ready e
  have opens : ∀ {t}, s.taken.requestAuxOpen tag = t → exec (.auxOpen tag) s = .next t :=
    fun e => exec_request_eq (.auxOpen tag) s rfl ready e
  refine ⟨fun outside => ?_, fun connected inhibited => ?_, fun k connected empty aux => ?_, fun none => ?_,
    fun k u hu one => ?_⟩
  · exact closes ((s.taken.requestAuxClose_outside tag outside).trans (s.taken_refuse ready tag _ _))
  · exact closes ((s.taken.requestAuxClose_inhibited tag connected inhibited).trans (s.taken_refuse ready tag _ _))
  · obtain ⟨already, refused, taken⟩ := s.taken.requestAuxClose_asks tag connected empty k aux
    exact ⟨fun answer => closes ((already answer).trans (s.taken_reply ready tag _ _)),
      fun answer => closes ((refused answer).trans (s.taken_reply ready tag _ _)),
      fun u hu answer => (s.taken_anyOrder_reply u ready hu tag _ _ _).imp (fun e => closes ((taken answer).trans e))
        fun e => closes ((taken answer).trans e)⟩
  · exact opens ((s.taken.requestAuxOpen_none tag none).trans
      (State.taken_reply { s with free := s.free + 1 } ready tag _ _))
  · have both := s.taken.requestAuxOpen_one tag k one
    exact (s.taken_anyOrder_reply u ready hu tag _ _ _).imp (fun e => opens (both.trans e)) fun e => opens (both.trans e)

/-! ### ACK_TRIP (R130) -/

/-! #### The cause that the bytes name (R185, 11.2.3) -/

theorem chainOf_eq_none_iff : ∀ code : Byte, chainOf code = none ↔ ¬code.toNat ≤ 1 := by decide

theorem channelOf_eq_none_iff : ∀ code : Byte, channelOf code = none ↔ ¬(1 ≤ code.toNat ∧ code.toNat ≤ 4) := by decide

/-- R185: the code of a fault kind. -/
def faultKindOf : Byte → Option FaultKind
  | 0x01#8 => some .stuck
  | 0x02#8 => some .dropped
  | 0x03#8 => some .welded
  | _ => none

theorem faultKindOf_eq_none_iff : ∀ code : Byte, faultKindOf code = none ↔ ¬(1 ≤ code.toNat ∧ code.toNat ≤ 3) := by
  decide

section Cause
variable (field1 field2 : Byte)

theorem decodeCause_limit :
    decodeCause 1#8 field1 field2 = if field1.toNat ≤ 63 then some (.limit field1.toNat) else none := rfl

theorem decodeCause_node : decodeCause 2#8 field1 field2 = (chainOf field1).bind fun c =>
    if 1 ≤ field2.toNat ∧ field2.toNat ≤ 16 then some (.node c field2.toNat) else none := by
  simp only [decodeCause, inRange, Bool.and_eq_true, decide_eq_true_eq]
  cases chainOf field1 <;> rfl

theorem decodeCause_contactor : decodeCause 5#8 field1 field2 =
    (channelOf field1).bind fun k => (faultKindOf field2).map fun f => .contactor k f := by
  simp only [decodeCause]
  cases channelOf field1 with
  | none => rfl
  | some k =>
    unfold faultKindOf
    split <;> simp_all

theorem decodeCause_limit_none : decodeCause 1#8 field1 field2 = none ↔ ¬field1.toNat ≤ 63 := by
  rw [decodeCause_limit, ite_eq_right_iff]
  exact ⟨fun h le => (nomatch h le), fun h le => absurd le h⟩

theorem decodeCause_node_none : decodeCause 2#8 field1 field2 = none ↔
    ¬(field1.toNat ≤ 1 ∧ 1 ≤ field2.toNat ∧ field2.toNat ≤ 16) := by
  rw [decodeCause_node, not_and_or, ← chainOf_eq_none_iff]
  cases chainOf field1 <;> simp

theorem decodeCause_contactor_none : decodeCause 5#8 field1 field2 = none ↔
    ¬(1 ≤ field1.toNat ∧ field1.toNat ≤ 4 ∧ 1 ≤ field2.toNat ∧ field2.toNat ≤ 3) := by
  rw [decodeCause_contactor, ← and_assoc, not_and_or, ← channelOf_eq_none_iff, ← faultKindOf_eq_none_iff]
  cases channelOf field1 <;> cases faultKindOf field2 <;> simp

/-- R185: the kinds of which the fields, within their ranges, name a cause. -/
theorem decodeCause_none_iff (kind : Byte) : decodeCause kind field1 field2 = none ↔
    ¬((kind = 1#8 ∧ field1.toNat ≤ 63) ∨ (kind = 2#8 ∧ field1.toNat ≤ 1 ∧ 1 ≤ field2.toNat ∧ field2.toNat ≤ 16) ∨
      kind = 3#8 ∨ kind = 4#8 ∨
      (kind = 5#8 ∧ 1 ≤ field1.toNat ∧ field1.toNat ≤ 4 ∧ 1 ≤ field2.toNat ∧ field2.toNat ≤ 3) ∨ kind = 6#8) := by
  by_cases limit : kind = 1#8
  · subst limit
    rw [decodeCause_limit_none]
    simp
  by_cases node : kind = 2#8
  · subst node
    rw [decodeCause_node_none]
    simp
  by_cases contactor : kind = 5#8
  · subst contactor
    rw [decodeCause_contactor_none]
    simp
  unfold decodeCause
  split <;> simp_all

end Cause

/-! #### The answer -/

section Ack
variable (s : State) (tag kind field1 field2 : Byte)

theorem State.requestAck_nothing (h : decodeCause kind field1 field2 = none) :
    s.requestAck tag kind field1 field2 = s.reply tag .badArgument .none := by
  unfold State.requestAck
  rw [h]

theorem State.requestAck_cause (c : Cause) (h : decodeCause kind field1 field2 = some c) :
    s.requestAck tag kind field1 field2 =
      if c ∉ s.inhibit then s.reply tag .noSuch .none
      else if s.conditionGone c = true then ({ s with inhibit := s.inhibit.filter fun d => d != c } : State).reply tag .done
        (.causesLeft (s.inhibit.filter fun d => d != c).length)
      else s.reply tag .refusedState .none := by
  unfold State.requestAck
  rw [h]

end Ack

theorem State.conditionGone_limit (s : State) (n : Nat) (h : n < s.limits.length) :
    s.conditionGone (.limit n) = true ↔ ∃ x, s.limits[n]? = some x ∧ x.state = .normal := by
  rw [List.getElem?_eq_getElem h]
  unfold State.conditionGone
  simp [List.getD_eq_getElem?_getD, h]

theorem State.conditionGone_node (s : State) (c : Chain) (p : Nat) :
    s.conditionGone (.node c p) = true ↔ ∀ e, s.node c p = some e → e.state ≠ .lost := by
  unfold State.conditionGone
  dsimp only
  cases s.node c p <;> simp

theorem State.conditionGone_current (s : State) : s.conditionGone .current = true ↔ s.stream.state = .live := by
  unfold State.conditionGone
  rw [beq_iff_eq]

/-- Settles O45: the order of the tests, the condition of each cause, and the cause that the bytes name. -/
theorem ackTripAnswers : Obligations.AckTripAnswers := by
  refine ⟨fun s tag kind field1 field2 ready => ?_,
    fun a b c k f => ⟨fun h => if_pos h, fun low high => ?_, rfl, rfl, ?_, rfl⟩⟩
  · have acts : ∀ {t}, s.taken.requestAck tag kind field1 field2 = t → exec (.ackTrip tag kind field1 field2) s = .next t :=
      fun e => exec_request_eq (.ackTrip tag kind field1 field2) s rfl ready e
    refine ⟨fun nothing => ?_, decodeCause_none_iff field1 field2 kind, fun c named => ?_, s.conditionGone_limit,
      s.conditionGone_node, s.conditionGone_current, rfl, fun k => ⟨rfl, rfl, rfl⟩, rfl⟩
    · exact acts ((s.taken.requestAck_nothing tag kind field1 field2 nothing).trans (s.taken_reply ready tag _ _))
    · have row := s.taken.requestAck_cause tag kind field1 field2 c named
      refine ⟨fun absent => ?_, fun held stands => ?_, fun held gone => ?_⟩
      · exact acts ((row.trans (if_pos absent)).trans (s.taken_reply ready tag _ _))
      · exact acts ((row.trans ((if_neg (not_not.2 held)).trans (if_neg (Bool.eq_false_iff.1 stands)))).trans
          (s.taken_reply ready tag _ _))
      · exact acts ((row.trans ((if_neg (not_not.2 held)).trans (if_pos gone))).trans
          (State.taken_reply { s with inhibit := s.inhibit.filter fun d => d != c } ready tag _ _))
  · rw [decodeCause_node]
    cases c <;> exact if_pos ⟨low, high⟩
  · rw [decodeCause_contactor]
    cases k <;> cases f <;> rfl

end Sys2Proof.Machine
end

section
/-! SUPPORT. SUPERVISE and the supervision faults. -/

namespace Sys2Proof.Machine

/-! ### SUPERVISE (R132) -/

/-- R132: a GOOD number is the new reference, with Wmin as early bound. -/
def State.supervised (s : State) (n : Byte) : State :=
  { s with
    window := { s.window with
      reference := some s.time, earlyIsWmin := true, expiry := some (s.time + millis s.wmax), lastGood := some n
      faults := 0 } }

section Supervise
variable (s : State) (n : Byte)

theorem State.judgeSupervise_disarmed (h : s.window.armed = false) : s.judgeSupervise n = .disarmed := by
  unfold State.judgeSupervise
  rw [h]

section Armed
variable (reference : Instant) (armed : s.window.armed = true) (from_ : s.window.reference = some reference)
include armed from_

/-- R132: with the window armed, the early bound is tested before the number. -/
theorem State.judgeSupervise_armed : s.judgeSupervise n =
    if (s.time - reference).toNat < s.earlyBound then .early
    else if s.window.lastGood = none ∨ s.window.lastGood = some (n - 1#8) then .good else .sequence := by
  unfold State.judgeSupervise
  rw [armed, from_]
  dsimp only
  refine ite_congr rfl (fun _ => rfl) fun _ => ?_
  cases s.window.lastGood with
  | none => rfl
  | some g =>
    simp only [reduceCtorEq, false_or, Option.some.injEq]
    exact if_congr (by rw [eq_sub_iff_add_eq, eq_comm]) rfl rfl

theorem State.judgeSupervise_early (h : (s.time - reference).toNat < s.earlyBound) : s.judgeSupervise n = .early :=
  (s.judgeSupervise_armed n reference armed from_).trans (if_pos h)

theorem State.judgeSupervise_good (h : s.earlyBound ≤ (s.time - reference).toNat)
    (expected : s.window.lastGood = none ∨ s.window.lastGood = some (n - 1#8)) : s.judgeSupervise n = .good :=
  (s.judgeSupervise_armed n reference armed from_).trans ((if_neg (not_lt.2 h)).trans (if_pos expected))

theorem State.judgeSupervise_sequence (h : s.earlyBound ≤ (s.time - reference).toNat) (numbered : s.window.lastGood ≠ none)
    (other : s.window.lastGood ≠ some (n - 1#8)) : s.judgeSupervise n = .sequence :=
  (s.judgeSupervise_armed n reference armed from_).trans ((if_neg (not_lt.2 h)).trans (if_neg (not_or.2 ⟨numbered, other⟩)))

end Armed

section Request
variable (tag : Byte)

theorem State.requestSupervise_disarmed (h : s.judgeSupervise n = .disarmed) : s.requestSupervise tag n =
    s.reply tag .done (.supervision .disarmed s.window.faults (s.window.lastGood.map (· + 1#8))) := by
  unfold State.requestSupervise
  rw [h]
  rfl

theorem State.requestSupervise_good (h : s.judgeSupervise n = .good) : s.requestSupervise tag n =
    (s.supervised n).reply tag .done (.supervision .good 0 (s.window.lastGood.map (· + 1#8))) := by
  unfold State.requestSupervise
  rw [h]
  rfl

/-- R132: EARLY and SEQUENCE are supervision faults. -/
theorem State.requestSupervise_faults (j : Judgement) (f : SupervisionFault)
    (fault : j = .early ∧ f = .early ∨ j = .sequence ∧ f = .sequence) (h : s.judgeSupervise n = j) :
    s.requestSupervise tag n = s.anyOrder
      [fun t => t.reply tag .done (.supervision j (s.faultsAfter j) (s.window.lastGood.map (· + 1#8))),
        fun t => t.superviseFault f] := by
  unfold State.requestSupervise
  rw [h]
  rcases fault with ⟨rfl, rfl⟩ | ⟨rfl, rfl⟩ <;> rfl

end Request

/-- R132, R133: the count after a fault, 0 where it brought a loss (entry 46). -/
theorem State.faultsAfter_fault (i : Image) (image : s.image = some i) (j : Judgement) (fault : j = .early ∨ j = .sequence) :
    s.faultsAfter j = if i.shared.faultLimit ≤ s.window.faults + 1 then 0 else s.window.faults + 1 := by
  unfold State.faultsAfter
  rw [s.shared_of_image image]
  rcases fault with rfl | rfl <;> rfl

theorem State.wmin_of_image (i : Image) (image : s.image = some i) : s.wmin = i.shared.wmin := by
  unfold State.wmin
  rw [s.shared_of_image image]

theorem State.wmax_of_image (i : Image) (image : s.image = some i) : s.wmax = i.shared.wmax := by
  unfold State.wmax
  rw [s.shared_of_image image]

end Supervise

/-- Settles O46: the judgement by the window, the answer and the fault of each, and the bounds and the count. -/
theorem superviseAnswers : Obligations.SuperviseAnswers := by
  refine ⟨fun s tag n ready => ?_, fun s i j image =>
    ⟨s.wmin_of_image i image, s.wmax_of_image i image, s.faultsAfter_fault i image j⟩⟩
  have acts : ∀ {t}, s.taken.requestSupervise tag n = t → exec (.supervise tag n) s = .next t :=
    fun e => exec_request_eq (.supervise tag n) s rfl ready e
  refine ⟨fun disarmed => ?_, ?_⟩
  · exact acts ((s.taken.requestSupervise_disarmed n tag (s.judgeSupervise_disarmed n disarmed)).trans
      (s.taken_reply ready tag _ _))
  · rintro reference bound armed from_ rfl
    refine ⟨fun late _ expected => ?_, fun u j f hu judged => ?_⟩
    · exact acts ((s.taken.requestSupervise_good n tag (s.judgeSupervise_good n reference armed from_ late expected)).trans
        (State.taken_reply (s.supervised n) ready tag _ _))
    · have faulty : (j = .early ∧ f = .early ∨ j = .sequence ∧ f = .sequence) ∧ s.judgeSupervise n = j := by
        rcases judged with ⟨early, rfl, rfl⟩ | ⟨late, numbered, other, rfl, rfl⟩
        · exact ⟨.inl ⟨rfl, rfl⟩, s.judgeSupervise_early n reference armed from_ early⟩
        · exact ⟨.inr ⟨rfl, rfl⟩, s.judgeSupervise_sequence n reference armed from_ late numbered other⟩
      obtain ⟨fault, judgement⟩ := faulty
      have both := s.taken.requestSupervise_faults n tag j f fault judgement
      exact (s.taken_anyOrder_reply u ready hu tag _ _ _).imp (fun e => acts (both.trans e)) fun e => acts (both.trans e)

/-! ### The supervision faults (R133) -/

/-- R133: what a fault is noticed as and makes of the window, before a loss is looked for. -/
def State.faulted (s : State) (kind : SupervisionFault) : State :=
  { s.notify (.supervisionFault kind s.time (s.window.lastGood.map (· + 1#8)) (s.window.faults + 1)) with
    window := { s.window with
      reference := some s.time, earlyIsWmin := false, expiry := some (s.time + millis s.wmax)
      faults := s.window.faults + 1 } }

theorem State.superviseFault_of_image (s : State) (kind : SupervisionFault) (i : Image) (image : s.image = some i) :
    s.superviseFault kind =
      if i.shared.faultLimit ≤ s.window.faults + 1 then
        { ((s.faulted kind).notify (.supervisionLoss s.time kind)).fire i.shared.supervisionAction .supervision none with
          window := { (((s.faulted kind).notify (.supervisionLoss s.time kind)).fire i.shared.supervisionAction .supervision
            none).window with faults := 0 } }
      else s.faulted kind := by
  delta State.superviseFault
  extract_lets count expected noticed window faulted
  have shared : faulted.shared = some i.shared := State.shared_of_image faulted image
  rw [shared]
  rfl

/-- Settles O47: a fault by the count it reaches, and the expiry of an armed window. -/
theorem supervisionFaults : Obligations.SupervisionFaults := by
  rintro s kind i u image hu
  have fault := s.superviseFault_of_image kind i image
  have faulted : s.faulted kind = u := by
    unfold State.faulted
    rw [s.wmax_of_image i image, hu]
  rw [faulted] at fault
  refine ⟨fun below => fault.trans (if_neg (not_le.2 below)), fun reaches => fault.trans (if_pos reaches),
    fun due held armed expiry ended => exec_supervisionExpiry s held ?_⟩
  unfold State.supervisionDue expired
  rw [armed, expiry]
  exact ended

end Sys2Proof.Machine
end

section
/-! SUPPORT. The channels of the roles, the openings of one event, and DISCONNECT. -/

namespace Sys2Proof.Machine

/-! ### The channels of the roles (R115) -/

section Roles
variable (s : State)

theorem State.channelOf_unconfigured (r : Role) (image : s.image = none) : s.channelOf r = none := by
  unfold State.channelOf State.role
  rw [image]
  rfl

theorem State.channelOf_none_iff (r : Role) : s.channelOf r = none ↔ ∀ k, s.role k ≠ some r := by
  unfold State.channelOf
  simp [List.find?_eq_none, ChannelId.mem_all]

/-- R115: the one channel that plays a role. -/
theorem State.channelOf_unique {r : Role} {k : ChannelId} (plays : s.role k = some r)
    (alone : ∀ j, s.role j = some r → j = k) : s.channelOf r = some k := by
  cases found : s.channelOf r with
  | none => exact absurd plays ((s.channelOf_none_iff r).1 found k)
  | some j => rw [alone j (State.role_channelOf found)]

theorem State.channelsOf_eq (roles : List Role) : s.channelsOf roles = roles.filterMap s.channelOf := by
  unfold State.channelsOf List.reduceOption
  rw [List.filterMap_map]
  rfl

theorem State.mem_closedOf (roles : List Role) (k : ChannelId) :
    k ∈ s.closedOf roles ↔ ((s.channel k).state = .pullIn ∨ (s.channel k).state = .hold) ∧
      ∃ r ∈ roles, s.channelOf r = some k := by
  unfold State.closedOf
  rw [List.mem_filter, s.channelsOf_eq, List.mem_filterMap, ChannelState.isClosed_iff, and_comm]

/-- R115: a channel plays one role, so that different roles name different channels. -/
theorem State.closedOf_nodup (roles : List Role) (distinct : roles.Nodup) : (s.closedOf roles).Nodup := by
  unfold State.closedOf
  rw [s.channelsOf_eq]
  refine (distinct.filterMap fun r q k plays plays' => ?_).filter _
  exact Option.some.inj ((State.role_channelOf plays).symm.trans (State.role_channelOf plays'))

theorem State.mem_closedChannels (k : ChannelId) :
    k ∈ s.closedChannels ↔ (s.channel k).state = .pullIn ∨ (s.channel k).state = .hold := by
  unfold State.closedChannels
  rw [List.mem_filter, ChannelState.isClosed_iff]
  exact and_iff_right (ChannelId.mem_all k)

theorem State.closedChannels_nodup : s.closedChannels.Nodup := (show ChannelId.all.Nodup by decide).filter _

/-! ### The openings of one event (entry 3) -/

theorem State.openRequests_perm (l : List ChannelId) (by_ : Requester) (closing : Option RoundNumber) :
    ∃ order : List ChannelId, order.Perm l ∧ s.openRequests l by_ closing =
      order.foldl (fun t k => t.openRequest k by_ closing) { s with free := s.free + l.length } := by
  refine ⟨shuffle s.free l, shuffle_perm s.free l, ?_⟩
  unfold State.openRequests State.anyOrder
  rw [shuffle_map, List.foldl_map, List.length_map]

end Roles

/-! ### DISCONNECT (R125) -/

section Disconnect
variable (s : State) (tag : Byte)

theorem State.requestDisconnect_idle (h : s.sequencer.state = .idle) :
    s.requestDisconnect tag = s.reply tag .done .none := by
  unfold State.requestDisconnect
  rw [h]

theorem State.requestDisconnect_again (h : s.sequencer.state = .disconnecting) :
    s.requestDisconnect tag = s.reply tag .accepted .none := by
  unfold State.requestDisconnect
  rw [h]

theorem State.requestDisconnect_connected (h : s.sequencer.state = .connected) : s.requestDisconnect tag =
    ((s.reply tag .accepted .none).openRequests (s.closedOf [.pos, .aux]) .sequencer none).setSequencer fun q =>
      { q with state := .disconnecting } := by
  unfold State.requestDisconnect
  rw [h]
  rfl

/-- R125, R128: an abort (entry 3). -/
theorem State.requestDisconnect_aborts (h : s.sequencer.state = .negClosing ∨ s.sequencer.state = .precharging ∨
      s.sequencer.state = .posClosing ∨ s.sequencer.state = .preReleasing) : s.requestDisconnect tag =
    ((s.reply tag .accepted .none).noticeWithOpenings
      (fun t => t.noticeSequence .aborted (some s.sequencer.state) none none none none) s.closedChannels none).setSequencer
        fun q => { q.clearPrecharge with state := .disconnecting } := by
  unfold State.requestDisconnect
  rcases h with h | h | h | h <;> rw [h] <;> rfl

section Ended
variable (h : s.sequencer.state = .tripped ∨ s.sequencer.state = .failed)
include h

theorem State.requestDisconnect_ended : s.requestDisconnect tag =
    if s.allOpen then (s.reply tag .done .none).enterIdle
    else ((s.reply tag .accepted .none).openRequests s.closedChannels .sequencer none).setSequencer fun q =>
      { q with state := .disconnecting } := by
  unfold State.requestDisconnect
  rcases h with h | h <;> rw [h] <;> rfl

end Ended
end Disconnect

/-- Settles O43: DISCONNECT by the state of the Sequencer; the openings of one event; the channels of the roles. -/
theorem disconnectAnswers : Obligations.DisconnectAnswers := by
  refine ⟨fun s tag ready => ?_, State.openRequests_perm, fun s roles k => ⟨s.mem_closedOf roles k, s.closedOf_nodup roles,
    s.mem_closedChannels k, s.closedChannels_nodup⟩, fun s r => ⟨s.channelOf_unconfigured r, fun i image => ?_⟩⟩
  · have acts : ∀ {t}, s.taken.requestDisconnect tag = t → exec (.disconnect tag) s = .next t :=
      fun e => exec_request_eq (.disconnect tag) s rfl ready e
    have replies := s.taken_reply ready tag
    refine ⟨fun idle => ?_, fun again => ?_, fun connected => ?_, fun connecting => ?_, fun ended allOpen => ?_,
      fun ended closed => ?_⟩
    · exact acts ((s.taken.requestDisconnect_idle tag idle).trans (replies _ _))
    · exact acts ((s.taken.requestDisconnect_again tag again).trans (replies _ _))
    · refine acts ((s.taken.requestDisconnect_connected tag connected).trans ?_)
      rw [replies]
      rfl
    · obtain ⟨order, perm, e⟩ := (s.taken.reply tag .accepted .none).noticeWithOpenings_perm
        (fun t => t.noticeSequence .aborted (some s.sequencer.state) none none none none) s.closedChannels none
      refine ⟨order, perm, acts ((s.taken.requestDisconnect_aborts tag connecting).trans ?_)⟩
      refine congrArg (fun t => State.setSequencer t _) (e.trans ?_)
      rw [replies]
      rfl
    · refine acts ((s.taken.requestDisconnect_ended tag ended).trans ((if_pos allOpen).trans ?_))
      rw [replies]
      rfl
    · refine acts ((s.taken.requestDisconnect_ended tag ended).trans ((if_neg (Bool.eq_false_iff.1 closed)).trans ?_))
      rw [replies]
      rfl
  · have role : ∀ k, s.role k = some r ↔ (i.channelProfile k).role = r := fun k => by
      rw [s.role_of_image k image, Option.some.injEq]
    have none_ := s.channelOf_none_iff r
    simp only [ne_eq, role] at none_
    exact ⟨none_, fun k found => (role k).1 (State.role_channelOf found),
      fun k plays alone => s.channelOf_unique ((role k).2 plays) fun j other => alone j ((role j).1 other)⟩

end Sys2Proof.Machine
end

section
/-! SUPPORT. The faults that the Sequencer's table names, and the step that every other report brings. -/

namespace Sys2Proof.Machine

/-! ### The faults that the table names (R123) -/

/-- R123: the fault that a report names in the state that it finds. -/
def TableFault (state : SeqState) (role : Role) (reason : ChangeReason) (welded : Bool) : FaultKind → Prop
  | .stuck => reason = .stuck ∧ (state = .negClosing ∧ role = .neg ∨ state = .precharging ∧ role = .pre ∨
      state = .posClosing ∧ role = .pos ∨ state = .tripped ∧ role ≠ .aux)
  | .dropped => reason = .dropped ∧ ((state = .precharging ∨ state = .posClosing) ∧ (role = .neg ∨ role = .pre) ∨
      (state = .preReleasing ∨ state = .connected) ∧ (role = .neg ∨ role = .pos) ∨ state = .tripped ∧ role ≠ .aux)
  | .welded => reason = .feedback ∧ welded = true ∧
      (state = .negClosing ∨ state = .precharging ∨ state = .posClosing ∨ state = .preReleasing)

section Table
variable (state : SeqState) (role : Role) (reason : ChangeReason) (welded : Bool)

/-- R117: the ends of PULL_IN and of DROPOUT name no fault of the table. -/
theorem seqFault_of_phaseEnd (ended : reason = .pullInEnd ∨ reason = .dropoutEnd) :
    seqFault state (some role) reason welded = none := by
  rcases ended with rfl | rfl <;> cases state <;> rfl

/-- R123: the states in which no report names a fault. -/
theorem seqFault_of_outside (outside : state = .idle ∨ state = .failed ∨ state = .disconnecting) :
    seqFault state (some role) reason welded = none := by
  rcases outside with rfl | rfl | rfl <;> cases reason <;> rfl

theorem seqFault_tripped (other : role ≠ .aux) : seqFault .tripped (some role) .stuck welded = some .stuck ∧
    seqFault .tripped (some role) .dropped welded = some .dropped := by
  cases role with
  | aux => exact absurd rfl other
  | _ => exact ⟨rfl, rfl⟩

theorem tableFault_of_seqFault (f : FaultKind) (h : seqFault state (some role) reason welded = some f) :
    TableFault state role reason welded f := by
  unfold seqFault at h
  split at h
  case h_18 | h_19 | h_20 | h_21 =>
    obtain ⟨rfl, e⟩ := Option.ite_none_right_eq_some.1 h
    cases e
    exact ⟨rfl, rfl, by simp⟩
  case h_22 => cases h
  all_goals
    cases h
    simp_all [TableFault]

theorem seqFault_of_tableFault (f : FaultKind) (h : TableFault state role reason welded f) :
    seqFault state (some role) reason welded = some f := by
  cases f with
  | stuck =>
    obtain ⟨rfl, ⟨rfl, rfl⟩ | ⟨rfl, rfl⟩ | ⟨rfl, rfl⟩ | ⟨rfl, other⟩⟩ := h
    · rfl
    · rfl
    · rfl
    · exact (seqFault_tripped role welded other).1
  | dropped =>
    obtain ⟨rfl, ⟨closing, plays⟩ | ⟨closed, plays⟩ | ⟨rfl, other⟩⟩ := h
    · rcases closing with rfl | rfl <;> rcases plays with rfl | rfl <;> rfl
    · rcases closed with rfl | rfl <;> rcases plays with rfl | rfl <;> rfl
    · exact (seqFault_tripped role welded other).2
  | welded =>
    obtain ⟨rfl, rfl, rfl | rfl | rfl | rfl⟩ := h
    all_goals rfl

theorem seqFault_eq_some_iff (f : FaultKind) :
    seqFault state (some role) reason welded = some f ↔ TableFault state role reason welded f :=
  ⟨tableFault_of_seqFault state role reason welded f, seqFault_of_tableFault state role reason welded f⟩

theorem seqFault_eq_none_iff :
    seqFault state (some role) reason welded = none ↔ ∀ f, ¬TableFault state role reason welded f :=
  Option.eq_none_iff_forall_ne_some.trans
    (forall_congr' fun f => not_congr (seqFault_eq_some_iff state role reason welded f))

/-- R122, R123: the table, and the weld that PRE shows at the end of its dropout. -/
theorem failureOf_eq_some_iff (f : FaultKind) : failureOf state (some role) reason welded = some f ↔
    TableFault state role reason welded f ∨
      f = .welded ∧ state = .preReleasing ∧ reason = .dropoutEnd ∧ role = .pre ∧ welded = true := by
  rw [← seqFault_eq_some_iff]
  unfold failureOf
  cases named : seqFault state (some role) reason welded with
  | some g =>
    refine ⟨.inl, fun h => h.resolve_right ?_⟩
    rintro ⟨_, _, ended, _⟩
    rw [seqFault_of_phaseEnd state role reason welded (.inr ended)] at named
    cases named
  | none => simp [and_comm, eq_comm]

end Table

/-! ### A report (R117) -/

section Report
variable (s : State) (k : ChannelId) (reason : ChangeReason) (closing : Option RoundNumber)

theorem State.sequencerReport_fault (f : FaultKind)
    (h : seqFault s.sequencer.state (s.role k) reason (s.channel k).welded = some f) :
    s.sequencerReport k reason closing = s.enterFailed (.fault f k) closing := by
  unfold State.sequencerReport
  rw [h]

theorem State.sequencerReport_step (h : seqFault s.sequencer.state (s.role k) reason (s.channel k).welded = none) :
    s.sequencerReport k reason closing = s.sequencerStep k reason closing := by
  unfold State.sequencerReport
  rw [h]

section Role
variable (role : Role) (plays : s.role k = some role)
include plays

/-- R123: a report that the table names. -/
theorem State.sequencerReport_named (f : FaultKind)
    (h : TableFault s.sequencer.state role reason (s.channel k).welded f) :
    s.sequencerReport k reason closing = s.enterFailed (.fault f k) closing :=
  s.sequencerReport_fault k reason closing f (plays ▸ (seqFault_eq_some_iff _ role _ _ f).2 h)

theorem State.sequencerReport_unnamed (h : ∀ f, ¬TableFault s.sequencer.state role reason (s.channel k).welded f) :
    s.sequencerReport k reason closing = s.sequencerStep k reason closing :=
  s.sequencerReport_step k reason closing (plays ▸ (seqFault_eq_none_iff _ role _ _).2 h)

theorem State.sequencerReport_phaseEnd (ended : reason = .pullInEnd ∨ reason = .dropoutEnd) :
    s.sequencerReport k reason closing = s.sequencerStep k reason closing :=
  s.sequencerReport_step k reason closing (plays ▸ seqFault_of_phaseEnd _ role _ _ ended)

theorem State.sequencerReport_outside (outside : s.sequencer.state = .idle ∨ s.sequencer.state = .failed ∨
    s.sequencer.state = .disconnecting) : s.sequencerReport k reason closing = s.sequencerStep k reason closing :=
  s.sequencerReport_step k reason closing (plays ▸ seqFault_of_outside _ role _ _ outside)

end Role

/-- R117: the states in which a report that names no fault changes nothing. -/
theorem State.sequencerStep_outside (outside : s.sequencer.state = .idle ∨ s.sequencer.state = .failed ∨
    s.sequencer.state = .connected) : s.sequencerStep k reason closing = s := by
  unfold State.sequencerStep
  rcases outside with h | h | h <;> rw [h]

/-- R119, R120, R122: while the connection is made, the one report of each state that brings a step. -/
theorem State.sequencerStep_kept (role : Role) (plays : s.role k = some role)
    (connecting : s.sequencer.state = .negClosing ∨ s.sequencer.state = .precharging ∨ s.sequencer.state = .posClosing ∨
      s.sequencer.state = .preReleasing)
    (other : ¬(reason = .pullInEnd ∧ (s.sequencer.state = .negClosing ∧ role = .neg ∨
      s.sequencer.state = .precharging ∧ role = .pre ∨ s.sequencer.state = .posClosing ∧ role = .pos) ∨
      reason = .dropoutEnd ∧ s.sequencer.state = .preReleasing ∧ role = .pre)) :
    s.sequencerStep k reason closing = s := by
  unfold State.sequencerStep
  split <;> simp_all

/-- R119, R120, R122: that report, state by state. -/
theorem State.sequencerStep_connecting :
    (s.sequencer.state = .negClosing → reason = .pullInEnd → s.role k = some .neg →
      s.sequencerStep k reason closing = s.negPulledIn closing) ∧
    (s.sequencer.state = .precharging → reason = .pullInEnd → s.role k = some .pre →
      s.sequencerStep k reason closing = s.prePulledIn) ∧
    (s.sequencer.state = .posClosing → reason = .pullInEnd → s.role k = some .pos →
      s.sequencerStep k reason closing = s.posPulledIn closing) ∧
    (s.sequencer.state = .preReleasing → reason = .dropoutEnd → s.role k = some .pre →
      s.sequencerStep k reason closing = s.preReleased k closing) := by
  unfold State.sequencerStep
  refine ⟨?_, ?_, ?_, ?_⟩
  all_goals
    intro state ended plays
    rw [state, ended, plays]

theorem State.sequencerStep_disconnecting (h : s.sequencer.state = .disconnecting) :
    s.sequencerStep k reason closing = s.disconnectProgress closing := by
  unfold State.sequencerStep
  rw [h]

theorem State.sequencerStep_tripped (h : s.sequencer.state = .tripped) : s.sequencerStep k reason closing =
    if s.sequencer.disconnectPending = true ∧ s.allOpen = true then s.enterIdle else s := by
  unfold State.sequencerStep
  rw [h]
  simp only [Bool.and_eq_true]

end Report

end Sys2Proof.Machine
end

section
/-! SUPPORT. The steps of the Sequencer: the precharge, the reports of the channels, and the entry to FAILED and to TRIPPED. -/

namespace Sys2Proof.Machine

/-! ### The steps of the reports (R119 to R122, R126) -/

section Steps
variable (s : State) (closing : Option RoundNumber)

theorem State.negPulledIn_inhibited (h : s.inhibit ≠ []) : s.negPulledIn closing = s.enterFailed .inhibited closing :=
  if_neg (by rwa [List.isEmpty_iff])

theorem State.negPulledIn_closes (j : ChannelId) (empty : s.inhibit = []) (pre : s.channelOf .pre = some j) :
    s.negPulledIn closing = (s.closeRequest j).setSequencer fun q => { q with state := .precharging } := by
  unfold State.negPulledIn
  rw [if_pos (by rw [empty]; rfl), State.closeRole_channel pre]

theorem State.prePulledIn_of_image (i : Image) (image : s.image = some i) : s.prePulledIn =
    { s with sequencer := { s.sequencer with
      prechargeStart := some s.time, minimumExpiry := some (s.time + millis i.shared.prechargeMinimum)
      maximumExpiry := some (s.time + millis i.shared.prechargeMaximum), goodWords := 0, minimumTaken := false } } := by
  unfold State.prePulledIn
  rw [s.shared_of_image image]
  rfl

theorem State.posPulledIn_opens (j : ChannelId) (pre : s.channelOf .pre = some j) : s.posPulledIn closing =
    (s.openRequest j .sequencer closing).setSequencer fun q => { q with state := .preReleasing } := by
  unfold State.posPulledIn
  rw [pre]

theorem State.preReleased_welded (k : ChannelId) (welded : (s.channel k).welded = true) :
    s.preReleased k closing = s.enterFailed (.fault .welded k) closing := if_pos welded

theorem State.preReleased_connects (k : ChannelId) (sound : (s.channel k).welded = false) : s.preReleased k closing =
    ({ s with sequencer := { s.sequencer with state := .connected, lastOutcome := some (.connected, s.time) } }
      : State).notifyAwake (.sequence .connected s.time none s.sequencer.lastPrecharge none none
        (some s.currentReport)) := if_neg (Bool.eq_false_iff.1 sound)

/-- R126, R128: the entry to IDLE. -/
theorem State.enterIdle_eq : s.enterIdle =
    ({ s with sequencer := { s.sequencer with state := .idle, lastOutcome := some (.disconnected, s.time) } }
      : State).notifyAwake (.sequence .disconnected s.time (some s.sequencer.state) none none none none) := rfl

theorem State.disconnectProgress_idle (all : s.allOpen = true) : s.disconnectProgress closing = s.enterIdle := if_pos all

theorem State.othersOpen_iff (j : ChannelId) :
    (ChannelId.all.all fun h => h == j || s.isOpen h) = true ↔ ∀ h, h ≠ j → s.isOpen h = true := by
  simp [ChannelId.mem_all, or_iff_not_imp_left]

section Neg
variable (j : ChannelId) (neg : s.channelOf .neg = some j)
include neg

/-- R126: NEG is opened where it alone is closed. -/
theorem State.disconnectProgress_opens (closed : (s.channel j).state.isClosed = true)
    (others : ∀ h, h ≠ j → s.isOpen h = true) : s.disconnectProgress closing = s.openRequest j .sequencer closing := by
  have left : s.allOpen = false := State.allOpen_eq_false (k := j) fun opened => by rw [opened] at closed; cases closed
  unfold State.disconnectProgress
  rw [left, neg]
  exact if_pos (Bool.and_eq_true_iff.2 ⟨closed, (s.othersOpen_iff j).2 others⟩)

theorem State.disconnectProgress_waits (left : s.allOpen = false)
    (h : (s.channel j).state.isClosed = false ∨ ∃ h, h ≠ j ∧ s.isOpen h = false) : s.disconnectProgress closing = s := by
  unfold State.disconnectProgress
  rw [left, if_neg Bool.false_ne_true, neg]
  refine if_neg fun opens => ?_
  obtain ⟨closed, others⟩ := Bool.and_eq_true_iff.1 opens
  rcases h with opened | ⟨h, other, notOpen⟩
  · exact Bool.eq_false_iff.1 opened closed
  · exact Bool.eq_false_iff.1 notOpen ((s.othersOpen_iff j).1 others h other)

end Neg
end Steps

/-! ### The precharge (R120, R121) -/

/-- R121: the last precharge, written at its end. -/
def State.precharged (s : State) (start : Instant) : State :=
  { s with sequencer := { s.sequencer with lastPrecharge := some ⟨start, s.time, s.sequencer.goodWords⟩ } }

section Precharge
variable (s : State)

section Ends
variable (start : Instant) (begun : s.sequencer.prechargeStart = some start)
include begun

theorem State.prechargeEndsWell_eq : s.prechargeEndsWell =
    if s.inhibit.isEmpty then ((s.precharged start).closeRole .pos).setSequencer fun q =>
      { q.clearPrecharge with state := .posClosing }
    else (s.precharged start).enterFailed .inhibited none := by
  delta State.prechargeEndsWell
  extract_lets written
  have recorded : written = s.precharged start := by
    simp only [written, State.setSequencer, State.precharged, begun, Option.map_some]
  rw [recorded]
  rfl

theorem State.prechargeEndsWell_inhibited (h : s.inhibit ≠ []) :
    s.prechargeEndsWell = (s.precharged start).enterFailed .inhibited none :=
  (s.prechargeEndsWell_eq start begun).trans (if_neg (by rwa [List.isEmpty_iff]))

theorem State.prechargeEndsWell_closes (k : ChannelId) (empty : s.inhibit = []) (pos : s.channelOf .pos = some k) :
    s.prechargeEndsWell = ((s.precharged start).closeRequest k).setSequencer fun q =>
      { q.clearPrecharge with state := .posClosing } := by
  rw [s.prechargeEndsWell_eq start begun, if_pos (by rw [empty]; rfl)]
  exact congrArg (fun t => State.setSequencer t _) (State.closeRole_channel pos)

end Ends

theorem State.minimumExpires_of_image (i : Image) (image : s.image = some i) (u : State)
    (hu : u = { s with sequencer := { s.sequencer with minimumTaken := true } }) :
    s.minimumExpires = if i.shared.endCount ≤ s.sequencer.goodWords then u.prechargeEndsWell else u := by
  subst hu
  delta State.minimumExpires
  extract_lets taken
  rw [taken.shared_of_image image]
  rfl

section Word
variable (i : Image) (value : BitVec 24) (gap : Bool) (image : s.image = some i)
  (state : s.sequencer.state = .precharging)

theorem State.prechargeWord_outside (outside : s.sequencer.state ≠ .precharging ∨ s.sequencer.prechargeStart = none) :
    s.prechargeWord value gap = s := by
  unfold State.prechargeWord
  split
  · next precharging begun => exact absurd precharging (outside.resolve_right (by rw [begun]; nofun))
  · rfl

include image state

/-- R120, R121: a word after the precharge start counts, and with enough of them past the minimum precharge ends well. -/
theorem State.prechargeWord_counts (u : State) (start : Instant) (words : Nat)
    (begun : s.sequencer.prechargeStart = some start)
    (count : words = if i.shared.endCurrent < value.toInt.natAbs then 0 else if gap then 1
      else min (s.sequencer.goodWords + 1) 64)
    (hu : u = { s with sequencer := { s.sequencer with goodWords := words } }) :
    s.prechargeWord value gap =
      if s.sequencer.minimumTaken = true ∧ i.shared.endCount ≤ words then u.prechargeEndsWell else u := by
  subst hu count
  unfold State.prechargeWord
  rw [s.shared_of_image image, state, begun]
  simp only [Bool.and_eq_true, decide_eq_true_eq]
  rfl

end Word

/-! ### A word for the Limit Evaluator and the Sequencer (R56, entry 3) -/

section Handed
variable (value : BitVec 24) (sequence : Byte) (gap : Bool)

theorem State.handWord_unjudged (state : s.sequencer.state = .precharging) (judges : s.judgesWords = false) :
    s.handWord value sequence gap = ({ s with free := s.free + 1 } : State).prechargeWord value gap := by
  unfold State.handWord
  rw [judges, if_pos state]
  exact s.anyOrder_one _

theorem State.handWord_both (v : State) (state : s.sequencer.state = .precharging) (judges : s.judgesWords = true)
    (hv : v = { s with free := s.free + 2 }) :
    s.handWord value sequence gap = (v.evaluateWord value sequence v.time).prechargeWord value gap ∨
    s.handWord value sequence gap = (v.prechargeWord value gap).evaluateWord value sequence v.time := by
  subst hv
  unfold State.handWord
  rw [judges, if_pos state]
  exact s.anyOrder_two _ _

theorem State.handWord_outside (state : s.sequencer.state ≠ .precharging) : s.handWord value sequence gap =
    if s.judgesWords = true then ({ s with free := s.free + 1 } : State).evaluateWord value sequence s.time else s := by
  cases judges : s.judgesWords with
  | false => exact s.handWord_none value sequence gap judges state
  | true =>
    unfold State.handWord
    rw [judges, if_neg state]
    exact s.anyOrder_one _

end Handed
end Precharge

/-! ### The entry to FAILED and to TRIPPED (R123, R124) -/

section Entry
variable (s : State) (closing : Option RoundNumber)

theorem State.enterFailed_perm (reason : FailReason) : ∃ order : List (State → State), order.Perm
    ((fun t => ({ t with sequencer := { t.sequencer with lastOutcome := some (.failed reason, t.time) } }
      : State).notifyAwake (.sequence (.failed reason) t.time (some s.sequencer.state) none none
        (if reason = .prechargeTimeout then some s.sequencer.goodWords else none) (some t.currentReport))) ::
      s.closedChannels.map fun k t => t.openRequest k .sequencer closing) ∧
    s.enterFailed reason closing = order.foldl (fun t f => f t) { s with
      sequencer := { s.sequencer.clearPrecharge with state := .failed }, free := s.free + order.length } :=
  State.noticeWithOpenings_perm _ _ _ closing

theorem State.enterTripped_perm (cause : Cause) : ∃ order : List (State → State), order.Perm
    ((fun t => ({ t with sequencer := { t.sequencer with lastOutcome := some (.tripped, t.time) } }
      : State).notifyAwake (.sequence .tripped t.time (some s.sequencer.state) none (some cause) none none)) ::
      if s.sequencer.state = .disconnecting then s.closedChannels.map fun k t => t.openRequest k .sequencer closing else []) ∧
    s.enterTripped cause closing = order.foldl (fun t f => f t) { s with
      sequencer := { s.sequencer.clearPrecharge with
        state := .tripped, tripCause := some cause, disconnectPending := Decidable.decide (s.sequencer.state = .disconnecting) }
      free := s.free + order.length } := by
  obtain ⟨order, perm, e⟩ := State.noticeWithOpenings_perm (s.setSequencer fun q => { q.clearPrecharge with
    state := .tripped, tripCause := some cause, disconnectPending := s.sequencer.state == .disconnecting })
    (fun t => t.noticeSequence .tripped (some s.sequencer.state) none (some cause) none none)
    (if s.sequencer.state == .disconnecting then s.closedChannels else []) closing
  refine ⟨order, perm.trans (.of_eq (congrArg _ ?_)), e⟩
  by_cases disconnecting : s.sequencer.state = .disconnecting
  · rw [if_pos (beq_iff_eq.2 disconnecting), if_pos disconnecting]
  · rw [if_neg (mt beq_iff_eq.1 disconnecting), if_neg disconnecting, List.map_nil]

/-! #### What the entry to FAILED keeps and brings about -/

/-- R123, R128: the notice of FAILED, for a state that is left. -/
def State.noticeFailed (s : State) (reason : FailReason) (t : State) : State :=
  t.noticeSequence (.failed reason) (some s.sequencer.state) none none
    (if reason = .prechargeTimeout then some s.sequencer.goodWords else none) (some t.currentReport)

/-- R123: FAILED, before the notice and the openings (entry 44). -/
def State.failing (s : State) : State :=
  { s with sequencer := { s.sequencer.clearPrecharge with state := .failed } }

/-- R123: the notice of FAILED and the openings, which no rule orders (entry 3). -/
def State.failingEffects (s : State) (reason : FailReason) (closing : Option RoundNumber) : List (State → State) :=
  s.noticeFailed reason :: s.closedChannels.map fun k t => t.openRequest k .sequencer closing

section Failed
variable (reason : FailReason)

theorem State.enterFailed_eq :
    s.enterFailed reason closing = s.failing.anyOrder (s.failingEffects reason closing) := rfl

theorem State.mem_failingEffects (f : State → State) (h : f ∈ s.failingEffects reason closing) :
    f = s.noticeFailed reason ∨ ∃ j, f = fun t => t.openRequest j .sequencer closing :=
  (List.mem_cons.1 h).imp_right fun opening => (List.mem_map.1 opening).imp fun _ ⟨_, e⟩ => e.symm

/-- What the notice of the outcome and the openings keep, each effect keeps. -/
theorem State.failingEffects_keep {P : State → Prop}
    (notice : ∀ u o l, P u → P { u with sequencer := { u.sequencer with lastOutcome := o }, link := l })
    (opening : ∀ j u, P u → P (u.openRequest j .sequencer closing)) :
    ∀ f ∈ s.failingEffects reason closing, ∀ u, P u → P (f u) := by
  intro f hf u p
  rcases s.mem_failingEffects closing reason f hf with rfl | ⟨j, rfl⟩
  · obtain ⟨link, e⟩ : ∃ l, s.noticeFailed reason u = _ := u.noticeSequence_frame _ _ _ _ _ _
    rw [e]
    exact notice u _ link p
  · exact opening j u p

/-- R123: the state and the cleared precharge. -/
theorem State.enterFailed_sequencer : ∃ outcome, (s.enterFailed reason closing).sequencer =
    { s.sequencer.clearPrecharge with state := .failed, lastOutcome := outcome } :=
  s.failing.anyOrder_keeps (P := fun t => ∃ outcome, t.sequencer =
      { s.sequencer.clearPrecharge with state := .failed, lastOutcome := outcome }) _
    (s.failingEffects_keep closing reason (fun _ o _ ⟨_, e⟩ => ⟨o, by rw [e]⟩)
      fun j u ⟨o, e⟩ => ⟨o, (u.openRequest_sequencer j _ closing).trans e⟩) ⟨s.sequencer.lastOutcome, rfl⟩

theorem State.enterFailed_inhibit : (s.enterFailed reason closing).inhibit = s.inhibit :=
  s.failing.anyOrder_keeps (P := fun t => t.inhibit = s.inhibit) _
    (s.failingEffects_keep closing reason (fun _ _ _ p => p) fun j u p => (u.openRequest_inhibit j _ closing).trans p) rfl

/-- R123, R128: the notice writes the outcome, and the openings leave it. -/
theorem State.enterFailed_outcome :
    (s.enterFailed reason closing).sequencer.lastOutcome = some (.failed reason, s.time) := by
  have openTime : ∀ (j : ChannelId) (u : State), u.time = s.time → (u.openRequest j .sequencer closing).time = s.time :=
    fun j u p => (congrArg Prod.fst (u.openRequest_unfired j _ closing)).trans p
  have writes : ∀ u : State, u.time = s.time → (s.noticeFailed reason u).sequencer.lastOutcome =
      some (.failed reason, s.time) ∧ (s.noticeFailed reason u).time = s.time := fun u p => by
    obtain ⟨link, e⟩ : ∃ l, s.noticeFailed reason u = _ := u.noticeSequence_frame _ _ _ _ _ _
    rw [e, p]
    exact ⟨rfl, rfl⟩
  rw [s.enterFailed_eq closing reason]
  refine (s.failing.anyOrder_reaches (P := fun t => t.time = s.time)
    (Q := fun t => t.sequencer.lastOutcome = some (.failed reason, s.time) ∧ t.time = s.time) List.mem_cons_self
    (s.failingEffects_keep closing reason (fun _ _ _ p => p) openTime) writes (fun f hf u ⟨outcome, p⟩ => ?_) rfl).1
  rcases s.mem_failingEffects closing reason f hf with rfl | ⟨j, rfl⟩
  · exact writes u p
  · exact ⟨(congrArg Sequencer.lastOutcome (u.openRequest_sequencer j _ closing)).trans outcome, openTime j u p⟩

section Contact
variable (k : ChannelId)

/-- R105: what the change of a closed channel to DROPOUT keeps of a channel and its drive, each effect keeps. -/
theorem State.failingEffects_contact {C : Channel × Drive → Prop}
    (opens : ∀ c d, C c → c.1.state.isClosed = true → Dropped d → C d) :
    ∀ f ∈ s.failingEffects reason closing, ∀ u, C (u.contact k) → C ((f u).contact k) :=
  s.failingEffects_keep closing reason (P := fun t => C (t.contact k)) (fun _ _ _ p => p)
    fun j u p => u.openRequest_contact_keeps j _ closing k opens p

/-- R123: a channel that is closed gets its open request. -/
theorem State.enterFailed_contact_dropped (h : (s.channel k).state.isClosed = true) :
    Dropped ((s.enterFailed reason closing).contact k) := by
  have effect : (fun t : State => t.openRequest k .sequencer closing) ∈ s.failingEffects reason closing :=
    List.mem_cons_of_mem _ (List.mem_map_of_mem
      ((s.mem_closedChannels k).2 ((ChannelState.isClosed_iff _).1 h)))
  refine s.failing.anyOrder_reaches (P := fun t => (t.contact k).1.state.isClosed = true ∨ Dropped (t.contact k))
    (Q := fun t => Dropped (t.contact k)) effect
    (s.failingEffects_contact closing reason (C := fun c => c.1.state.isClosed = true ∨ Dropped c) k fun _ _ _ _ d => .inr d)
    (fun u p => ?_) (s.failingEffects_contact closing reason k fun _ _ _ _ d => d) (.inl h)
  rcases p with closed | dropped
  · exact u.openRequest_contact_dropped k _ closing closed
  · exact u.openRequest_contact_keeps k _ closing k (fun _ _ _ _ d => d) dropped

/-- R123: a channel that is not closed stays as it is. -/
theorem State.enterFailed_contact_open (h : (s.channel k).state.isClosed = false) :
    (s.enterFailed reason closing).contact k = s.contact k :=
  s.failing.anyOrder_keeps (P := fun t => t.contact k = s.contact k) _
    (s.failingEffects_contact closing reason (C := fun c => c = s.contact k) k fun c _ same closed _ => by
      rw [same] at closed
      exact absurd (h.symm.trans closed) Bool.false_ne_true) rfl

end Contact
end Failed
end Entry

/-! ### Fault reports (R110, R124) -/

section Fault
variable (s : State) (k : ChannelId)

/-- R100, R110: the actions that the working image names. -/
theorem State.faultAction_of_image (i : Image) (image : s.image = some i) :
    s.faultAction .stuck = i.shared.stuckAction ∧ s.faultAction .dropped = i.shared.droppedAction ∧
    s.faultAction .welded = i.shared.weldAction := by
  unfold State.faultAction
  rw [s.shared_of_image image]
  exact ⟨rfl, rfl, rfl⟩

theorem State.reportFault_unfired (f : FaultKind) (change : ChangeReason) (none_ : s.faultAction f = none) :
    s.reportFault k f change = ({ s with free := s.free + 1 } : State).sequencerReport k change none := by
  unfold State.reportFault
  rw [none_]
  exact (s.anyOrder_one _).trans (State.faultReport_own { s with free := s.free + 1 } k change)

/-- R124: the report and the action of a fault, in one of the two orders (entry 3). -/
theorem State.reportFault_fires (u : State) (f : FaultKind) (change : ChangeReason) (action : s.faultAction f ≠ none)
    (hu : u = { s with free := s.free + 2 }) :
    s.reportFault k f change = (u.sequencerReport k change none).fire (s.faultAction f) (.contactor k f) none ∨
    s.reportFault k f change =
      (u.fire (s.faultAction f) (.contactor k f) none).faultReport s.sequencer.state k change := by
  have own : u.faultReport s.sequencer.state k change = u.sequencerReport k change none := by
    rw [← u.faultReport_own k change, hu]
  rw [← own, hu]
  unfold State.reportFault
  dsimp only
  rw [if_pos (Option.isSome_iff_ne_none.2 action)]
  exact s.anyOrder_two _ _

/-- R124: outside TRIPPED a fault report is the report as it stands. -/
theorem State.faultReport_outside (before : SeqState) (change : ChangeReason) (outside : s.sequencer.state ≠ .tripped) :
    s.faultReport before k change = s.sequencerReport k change none := by
  unfold State.faultReport
  split
  · next tripped _ => exact absurd tripped outside
  · rfl

end Fault

/-! ### The expiries of the precharge (R121) -/

section Expiry
variable (s : State)

/-- R121: the end of the minimum of the precharge. -/
theorem exec_minimumExpiry (i : Image) (due : Instant) (u : State) (held : s.held = false) (image : s.image = some i)
    (state : s.sequencer.state = .precharging) (ended : reached due s.time = true) (taken : s.sequencer.minimumTaken = false)
    (expiry : s.sequencer.minimumExpiry = some due)
    (hu : u = { s with sequencer := { s.sequencer with minimumTaken := true } }) :
    exec .prechargeMinimumExpiry s =
      .next (if i.shared.endCount ≤ s.sequencer.goodWords then u.prechargeEndsWell else u) := by
  rw [← s.minimumExpires_of_image i image u hu]
  refine exec_prechargeMinimumExpiry s held ?_
  unfold State.minimumDue expired
  rw [state, taken, expiry]
  exact ended

theorem exec_maximumExpiry (due : Instant) (held : s.held = false) (state : s.sequencer.state = .precharging)
    (ended : reached due s.time = true) (expiry : s.sequencer.maximumExpiry = some due) :
    exec .prechargeMaximumExpiry s = .next (s.enterFailed .prechargeTimeout none) := by
  refine exec_prechargeMaximumExpiry s held ?_
  unfold State.maximumDue expired
  rw [state, expiry]
  exact ended

end Expiry

/-- Settles O37: the expiries of the precharge, the reports by the state that they find, the entries to FAILED and TRIPPED, the
words that count, and the fault reports. -/
theorem sequencerSteps : Obligations.SequencerSteps := by
  refine ⟨⟨?expiries, ?reports, ?entries, ?words, ?outside⟩, ?names, ?faults⟩
  case expiries =>
    intro s i due held image state ended
    refine ⟨fun u taken expiry hu => ?_, fun expiry => ⟨_, exec_maximumExpiry s due held state ended expiry, ?_⟩⟩
    · have ends := exec_minimumExpiry s i due u held image state ended taken expiry hu
      refine ⟨fun few => ?_, fun k start enough empty pos begun => ?_, fun start enough inhibited begun => ?_⟩
      · rw [ends, if_neg (not_le.2 few)]
      · rw [ends, if_pos enough, u.prechargeEndsWell_closes start (by rw [hu]; exact begun) k (by rw [hu]; exact empty)
          (by rw [hu]; exact pos), hu]
        rfl
      · rw [ends, if_pos enough, u.prechargeEndsWell_inhibited start (by rw [hu]; exact begun) (by rw [hu]; exact inhibited), hu]
        rfl
    · obtain ⟨outcome, sequencer⟩ := s.enterFailed_sequencer none .prechargeTimeout
      have written := s.enterFailed_outcome none .prechargeTimeout
      rw [sequencer] at written ⊢
      exact ⟨rfl, written, rfl, rfl, rfl, rfl, s.enterFailed_inhibit none _,
        fun k => ⟨s.enterFailed_contact_dropped none _ k, fun opened =>
          Prod.mk.inj (s.enterFailed_contact_open none _ k opened)⟩⟩
  case reports =>
    rintro s k reason closing i role state faulty idle image rfl rfl hf hi
    obtain rfl : idle = s.enterIdle := hi.trans s.enterIdle_eq.symm
    have plays := s.role_of_image k image
    have table : ∀ f, faulty f ↔
        TableFault s.sequencer.state (i.channelProfile k).role reason (s.channel k).welded f := fun f => by
      rw [hf]
      cases f <;> exact Iff.rfl
    have unfaulty : (∀ f, ¬faulty f) → s.sequencerReport k reason closing = s.sequencerStep k reason closing := fun h =>
      s.sequencerReport_unnamed k reason closing _ plays fun f => mt (table f).2 (h f)
    have ended := s.sequencerReport_phaseEnd k reason closing _ plays
    have outside := s.sequencerReport_outside k reason closing _ plays
    obtain ⟨neg, pre, pos, released⟩ := s.sequencerStep_connecting k reason closing
    rw [plays] at neg pre pos released
    simp only [Option.some.injEq] at neg pre pos released
    refine ⟨fun f h => ?_, fun state => ?_, fun connected h => ?_, fun connecting h other => ?_, fun state e r => ?_,
      fun state e r => ?_, fun j state e r hj => ?_, fun state e r => ?_, fun state => ?_, fun state h => ?_⟩
    · exact s.sequencerReport_named k reason closing _ plays f ((table f).1 h)
    · exact (outside (state.imp_right .inl)).trans (s.sequencerStep_outside k reason closing (state.imp_right .inl))
    · exact (unfaulty h).trans (s.sequencerStep_outside k reason closing (.inr (.inr connected)))
    · exact (unfaulty h).trans (s.sequencerStep_kept k reason closing _ plays connecting other)
    · have report := (ended (.inl e)).trans (neg state e r)
      exact ⟨fun h => report.trans (s.negPulledIn_inhibited closing h),
        fun j empty hj => report.trans (s.negPulledIn_closes closing j empty hj)⟩
    · exact ((ended (.inl e)).trans (pre state e r)).trans (s.prePulledIn_of_image i image)
    · exact ((ended (.inl e)).trans (pos state e r)).trans (s.posPulledIn_opens closing j hj)
    · have report := (ended (.inr e)).trans (released state e r)
      exact ⟨fun h => report.trans (s.preReleased_welded closing k h),
        fun h => report.trans (s.preReleased_connects closing k h)⟩
    · have report := (outside (.inr (.inr state))).trans (s.sequencerStep_disconnecting k reason closing state)
      exact ⟨fun all => report.trans (s.disconnectProgress_idle closing all),
        fun j hj closed others => report.trans (s.disconnectProgress_opens closing j hj closed others),
        fun j left hj h => report.trans (s.disconnectProgress_waits closing j hj left h)⟩
    · exact (unfaulty h).trans (s.sequencerStep_tripped k reason closing state)
  case entries =>
    rintro s reason cause closing left q rfl rfl
    refine ⟨s.enterFailed_perm closing reason, s.actionOpening_kept cause closing, fun idle tripped => ?_,
      fun k f change => ⟨s.reportFault_unfired k f change, fun action u hu => s.reportFault_fires k u f change action hu⟩⟩
    rw [s.actionOpening_trips cause closing idle tripped]
    exact s.enterTripped_perm closing cause
  case words =>
    rintro s u w i start value sequence gap words image state count hu rfl
    refine ⟨fun none_ => s.prechargeWord_outside value gap (.inr none_), fun begun => ?_,
      s.handWord_unjudged value sequence gap state, fun judges v => s.handWord_both value sequence gap v state judges⟩
    have counts := s.prechargeWord_counts i value gap image state u start words begun count hu
    refine ⟨fun more => counts.trans (if_neg ?_), fun taken enough => counts.trans (if_pos ⟨taken, enough⟩),
      s.prechargeEndsWell_inhibited start begun, fun k empty pos => s.prechargeEndsWell_closes start begun k empty pos⟩
    rintro ⟨taken, enough⟩
    exact more.elim (Bool.eq_false_iff.1 · taken) (not_lt.2 enough)
  case outside => exact fun s value sequence gap => s.handWord_outside value sequence gap
  case names =>
    intro s f i fault image
    obtain ⟨stuck, dropped, welded⟩ := s.faultAction_of_image i image
    cases fault with
    | stuck => exact ⟨rfl, stuck⟩
    | dropped => exact ⟨rfl, dropped⟩
    | welded => exact ⟨rfl, welded⟩
  case faults =>
    rintro s k reason before i role fails image rfl hf
    have fault : ∀ f, fails f ↔ failureOf before (s.role k) reason (s.channel k).welded = some f := fun f => by
      rw [hf, s.role_of_image k image, failureOf_eq_some_iff]
      cases f with
      | stuck => exact (or_iff_left (by rintro ⟨other, _⟩; cases other)).symm
      | dropped => exact (or_iff_left (by rintro ⟨other, _⟩; cases other)).symm
      | welded =>
        unfold TableFault
        tauto
    refine ⟨fun f tripped h => s.faultReport_tripped before k reason f tripped ((fault f).1 h), fun h => ?_⟩
    rcases h with outside | nothing
    · exact s.faultReport_outside k before reason outside
    · exact s.faultReport_of_none before k reason
        (Option.eq_none_iff_forall_ne_some.2 fun f => mt (fault f).2 (nothing f))

end Sys2Proof.Machine
end

section
/-! SUPPORT. The Host Link: which requests it takes and which it discards, what the end of an exchange makes of the bytes that came
in, and which bytes are no frame, fail their check, or are no request of the table. -/

namespace Sys2Proof.Machine

/-! ### A good inbound frame (R171, R174, R175) -/

/-- R175: a link that judges a good frame and does not take it: 4 answers are owed, or it is in CLOSING or RESETTING. -/
def HostLink.Discards (l : HostLink) : Prop := l.state = .opened ∧ 4 ≤ l.owed ∨ l.state = .closing ∨ l.state = .resetting

theorem State.takeInbound_takes (s : State) (f : State → State) (opened : s.link.state = .opened) (room : s.link.owed < 4) :
    s.takeInbound f = f s.taken := by
  unfold State.takeInbound
  rw [if_neg (by simp [opened]), if_pos (by simp [HostLink.takes, opened, room])]
  rfl

theorem State.takeInbound_discards (s : State) (f : State → State) (h : s.link.Discards) :
    s.takeInbound f = { s with link := s.link.discard } := by
  have judged : s.link.state ≠ .shut := by
    rcases h with ⟨h, -⟩ | h | h <;> simp [h]
  have refused : s.link.takes = false := by
    rcases h with ⟨h, owed⟩ | h | h <;> simp [HostLink.takes, h]
    exact owed
  unfold State.takeInbound
  rw [if_neg judged, if_neg (by simp [refused])]

theorem State.takeInbound_shut (s : State) (f : State → State) (h : s.link.state = .shut) : s.takeInbound f = s := if_pos h

/-! ### The end of an exchange (R172, R176) -/

/-- R172: HSEL# is high again. -/
def State.deselected (s : State) : State := { s with link := { s.link with exchange := none } }

section Exchange

variable (s : State) (b : List Byte) (e : Exchange) (he : s.link.exchange = some e)

include he

/-- Entry 29: an exchange that began in a SHUT link is not judged. -/
theorem exec_exchangeEnd_shut (kind : e.kind = .shut) : exec (.exchangeEnd b) s = .next s.deselected :=
  congrArg Host.Outcome.next (s.endExchange_shut b fun _ hx => Option.some.inj (he.symm.trans hx) ▸ kind)

theorem exec_exchangeEnd_closing (kind : e.kind = .closing) :
    exec (.exchangeEnd b) s = .next (s.deselected.judgeClosing b) := by
  refine congrArg Host.Outcome.next ?_
  unfold State.endExchange
  rw [he]
  dsimp only
  rw [kind]
  rfl

theorem exec_exchangeEnd_live (live : e.kind = .live) (final : e.clockedFinal b.length = false) :
    exec (.exchangeEnd b) s = .next ((s.deselected.settleExchange e b.length).judgeInbound b) := by
  refine congrArg Host.Outcome.next ?_
  unfold State.endExchange
  rw [he]
  dsimp only
  rw [live]
  exact if_neg (by simp [final])

theorem exec_exchangeEnd_final (live : e.kind = .live) (final : e.clockedFinal b.length = true) :
    exec (.exchangeEnd b) s = .next ((s.deselected.settleExchange e b.length).judgeInbound b).afterFinal := by
  refine congrArg Host.Outcome.next ?_
  unfold State.endExchange
  rw [he]
  dsimp only
  rw [live]
  exact if_pos final

end Exchange

/-! ### What the bytes that came in are judged as (R174 to R176) -/

section Judge

variable (s : State) (b : List Byte)

theorem State.judgeInbound_none (h : decodeInbound b = .none) : s.judgeInbound b = { s with link := s.link.noInbound } := by
  unfold State.judgeInbound
  rw [h]

theorem State.judgeInbound_failed (h : decodeInbound b = .failed) :
    s.judgeInbound b = { s with link := s.link.checkFailed } := by
  unfold State.judgeInbound
  rw [h]

theorem State.judgeInbound_request (i : Instr) (held : s.held = false) (h : decodeInbound b = .request i) :
    exec i s = .next (s.judgeInbound b) := by
  rw [exec_request_inbound i s (decodeInbound_isRequest b i h) held]
  unfold State.judgeInbound
  rw [h]

theorem State.judgeInbound_badRequest (tag : Byte) (h : decodeInbound b = .badRequest tag) (opened : s.link.state = .opened)
    (room : s.link.owed < 4) : s.judgeInbound b = s.answered tag .badArgument .none := by
  unfold State.judgeInbound
  rw [h]
  dsimp only
  rw [s.takeInbound_takes _ opened room]
  exact s.taken.reply_queued tag .badArgument .none (fun shut => by cases opened.symm.trans shut)

/-- A good frame, whether its request is in the table or not, that the link discards. -/
theorem State.judgeInbound_discards (h : (∃ tag, decodeInbound b = .badRequest tag) ∨ ∃ i, decodeInbound b = .request i)
    (discards : s.link.Discards) : s.judgeInbound b = { s with link := s.link.discard } := by
  unfold State.judgeInbound
  rcases h with ⟨_, h⟩ | ⟨_, h⟩ <;> rw [h] <;> exact s.takeInbound_discards _ discards

/-- R139: the inbound frame of an exchange that spans the shut: nothing is taken. -/
theorem State.judgeClosing_shut (h : s.link.state = .shut) :
    (decodeInbound b = .none → s.judgeClosing b = { s with link := s.link.noInbound }) ∧
    (decodeInbound b = .failed → s.judgeClosing b = { s with link := s.link.checkFailed }) ∧
    ((∃ tag, decodeInbound b = .badRequest tag) ∨ (∃ i, decodeInbound b = .request i) →
      s.judgeClosing b = { s with link := s.link.discard }) := by
  unfold State.judgeClosing
  rw [if_pos h]
  refine ⟨fun d => by rw [d], fun d => by rw [d], ?_⟩
  rintro (⟨_, d⟩ | ⟨_, d⟩) <;> rw [d]

theorem State.judgeClosing_unshut (h : s.link.state ≠ .shut) : s.judgeClosing b = s := if_neg h

/-- R139: in CLOSING every inbound frame is judged and none is taken. -/
theorem State.judgeInbound_closing (good failed : Bool) (closing : s.link.state = .closing)
    (hg : good = true ↔ (∃ tag, decodeInbound b = .badRequest tag) ∨ ∃ i, decodeInbound b = .request i)
    (hf : failed = true ↔ decodeInbound b = .failed) : s.judgeInbound b = { s with link := { s.link with
      lastDiscarded := good, lastCheckFailed := failed, hwake := if good then false else s.link.hwake } } := by
  have discards := s.judgeInbound_discards b (discards := .inr (.inl closing))
  cases d : decodeInbound b with
  | none =>
    obtain rfl : good = false := by simpa [d] using hg
    obtain rfl : failed = false := by simpa [d] using hf
    exact s.judgeInbound_none b d
  | failed =>
    obtain rfl : good = false := by simpa [d] using hg
    obtain rfl : failed = true := hf.2 d
    exact s.judgeInbound_failed b d
  | badRequest tag =>
    obtain rfl : good = true := hg.2 (.inl ⟨tag, d⟩)
    obtain rfl : failed = false := by simpa [d] using hf
    exact discards (.inl ⟨tag, d⟩)
  | request i =>
    obtain rfl : good = true := hg.2 (.inr ⟨i, d⟩)
    obtain rfl : failed = false := by simpa [d] using hf
    exact discards (.inr ⟨i, d⟩)

end Judge

/-! ### The outbound frame, and the last one of the link (R139, R178) -/

/-- R178: what the settling of the outbound frame leaves, by whether the frame has been clocked out whole. -/
theorem State.settleExchange_deselected (s t : State) (e : Exchange) (n : Nat)
    (cut : e.whole n = false → t = s.deselected)
    (whole : ∀ q, e.frame = some q → e.whole n = true →
      t = ({ s.deselected with link := s.deselected.link.depart q } : State).markReported q.frame) :
    s.deselected.settleExchange e n = t := by
  cases w : e.whole n with
  | false => rw [s.deselected.settleExchange_cut e n w, cut w]
  | true =>
    obtain ⟨q, frame, -⟩ := (e.whole_iff n).1 w
    rw [s.deselected.settleExchange_whole e n q frame w, whole q frame w]

theorem Exchange.clockedFinal_iff (e : Exchange) (n : Nat) : e.clockedFinal n = true ↔
    ∃ q, e.frame = some q ∧ q.final = true ∧ q.frame.bytes.length + 1 ≤ n := by
  unfold Exchange.clockedFinal Exchange.whole
  cases e.frame <;> simp [and_comm]

/-- R139: the exchange that has clocked out the last DONE of an entry to sleep shuts the link, once its inbound frame is judged. -/
theorem exec_exchangeEnd_shuts (s t : State) (b : List Byte) (e : Exchange) (good failed : Bool) (he : s.link.exchange = some e)
    (live : e.kind = .live) (settled : s.deselected.settleExchange e b.length = t) (final : e.clockedFinal b.length = true)
    (closing : s.link.state = .closing)
    (hg : good = true ↔ (∃ tag, decodeInbound b = .badRequest tag) ∨ ∃ i, decodeInbound b = .request i)
    (hf : failed = true ↔ decodeInbound b = .failed) : exec (.exchangeEnd b) s = .next ({ t with
      link := { t.link with
        state := .shut, queue := [], owed := 0, lastDiscarded := good, lastCheckFailed := failed
        hwake := if good then false else t.link.hwake }
      sleep := { t.sleep with shutExpiry := none } } : State).finish := by
  obtain ⟨link, ring, state, exchange, frame⟩ := s.deselected.settleExchange_frame e b.length
  have closing' : t.link.state = .closing := by
    rw [← settled, frame]
    exact state.trans closing
  have ended : t.link.exchange = none := by
    rw [← settled, frame]
    exact exchange
  rw [exec_exchangeEnd_final s b e he live final, settled, t.judgeInbound_closing b good failed closing' hg hf]
  unfold State.afterFinal
  dsimp only
  rw [closing']
  dsimp only
  unfold State.shutHostLink HostLink.shutLink
  dsimp only
  rw [ended]
  rfl

/-! ### The bytes of an inbound frame (R172, R176, R184) -/

theorem word16_toNat (h l : Byte) : (word16 h l).toNat = h.toNat * 256 + l.toNat := by
  unfold word16
  rw [BitVec.toNat_append, ← Nat.shiftLeft_add_eq_or_of_lt l.isLt, Nat.shiftLeft_eq]

theorem decodeInbound_zero (rest : List Byte) : decodeInbound (0#8 :: rest) = .none := by
  unfold decodeInbound
  exact if_pos rfl

theorem decodeInbound_unknown (kind : Byte) (rest : List Byte) (h : 2 < kind.toNat) :
    decodeInbound (kind :: rest) = .failed := by
  have other : ∀ k : Byte, k.toNat ≤ 2 → kind ≠ k := fun k le same => by
    subst same
    omega
  unfold decodeInbound
  dsimp only
  rw [if_neg (other _ (by decide)), if_pos ⟨other _ (by decide), other _ (by decide)⟩]

section Frame

variable (kind : Byte) (k : kind = 1#8 ∨ kind = 2#8)

include k

/-- A frame that is cut short before its payload. -/
theorem decodeInbound_cut (rest : List Byte) (h : rest.length < 2) : decodeInbound (kind :: rest) = .failed := by
  unfold decodeInbound
  dsimp only
  rw [if_neg (by rcases k with rfl | rfl <;> decide), if_neg (by rcases k with rfl | rfl <;> decide)]
  match rest, h with
  | [], _ => rfl
  | [_], _ => rfl

theorem decodePayload_short (payload : List Byte) (h : payload.length < if kind = 1#8 then 2 else 4) :
    decodePayload kind payload = .failed := by
  unfold decodePayload
  rcases k with rfl | rfl
  · match payload, h with
    | [], _ => rfl
    | [_], _ => rfl
  · match payload, h with
    | [], _ => rfl
    | [_], _ => rfl
    | [_, _], _ => rfl
    | [_, _, _], _ => rfl

/-- R174, R184: a length that is too great, a frame cut short, a wrong check word, a payload too short for its kind. -/
theorem decodeInbound_failed (h l : Byte) (more : List Byte) (n : Nat) (hn : n = h.toNat * 256 + l.toNat)
    (fails : 2043 < n ∨ more.length < n + 2 ∨ (more.drop n).take 2 ≠ bytes16 (crc16 (kind :: h :: l :: more.take n)) ∨
      n < if kind = 1#8 then 2 else 4) : decodeInbound (kind :: h :: l :: more) = .failed := by
  unfold decodeInbound
  dsimp only
  rw [if_neg (by rcases k with rfl | rfl <;> decide), if_neg (by rcases k with rfl | rfl <;> decide)]
  rw [word16_toNat, ← hn]
  split_ifs with long cut wrong
  · rfl
  · rfl
  · rfl
  · have short : n < if kind = 1#8 then 2 else 4 :=
      ((fails.resolve_left long).resolve_left cut).resolve_left fun g => wrong g.symm
    exact decodePayload_short kind k _ (lt_of_le_of_lt (List.length_take_le n more) short)

end Frame

/-- R176, R185: a code that names no request. -/
theorem decodeRequest_unknown (code tag : Byte) (args : List Byte) (h : code = 0#8 ∨ 22 < code.toNat) :
    decodeRequest code tag args = .badRequest tag := by
  unfold decodeRequest
  rcases h with rfl | h
  · rfl
  · obtain ⟨m, hm⟩ : ∃ m, code.toNat = m + 23 := ⟨code.toNat - 23, by omega⟩
    rw [hm]
    rfl

/-- R185: by the number of argument bytes and the code, a request is read only where the number is that of its code. 12h is
UPDATE_STAGE, whose record has any length. -/
theorem decodeRequest_miscounted (code tag : Byte) (args : List Byte) (known : code.toNat ≤ 22) (other : code.toNat ≠ 18)
    (wrong : args.length ≠ [0, 1, 0, 2, 1, 1, 2, 0, 3, 1, 0, 0, 0, 0, 3, 1, 0, 4, 2, 3, 4, 0, 0].getD code.toNat 0) :
    decodeRequest code tag args = .badRequest tag := by
  unfold decodeRequest
  generalize code.toNat = n at *
  rcases args with _ | ⟨a, _ | ⟨b, _ | ⟨c, _ | ⟨d, _ | ⟨e, r⟩⟩⟩⟩⟩ <;> interval_cases n <;>
    first | rfl | exact absurd rfl wrong | exact absurd rfl other

/-- R176, R185: a code that is in no table, a wrong number of argument bytes, or a CHAIN_STOP of no mode. -/
theorem decodeRequest_bad (code tag : Byte) (args : List Byte)
    (h : code = 0#8 ∨ 22 < code.toNat ∨ (code = 18#8 ∧ args.length < 2) ∨
      (code ≠ 18#8 ∧ args.length ≠
        [0, 1, 0, 2, 1, 1, 2, 0, 3, 1, 0, 0, 0, 0, 3, 1, 0, 4, 2, 3, 4, 0, 0].getD code.toNat 0) ∨
      (code = 3#8 ∧ ∃ c m, args = [c, m] ∧ m ≠ 1#8 ∧ m ≠ 2#8)) : decodeRequest code tag args = .badRequest tag := by
  rcases h with h | h | ⟨rfl, short⟩ | ⟨other, wrong⟩ | ⟨rfl, c, m, rfl, drain, abort⟩
  · exact decodeRequest_unknown code tag args (.inl h)
  · exact decodeRequest_unknown code tag args (.inr h)
  · match args, short with
    | [], _ => rfl
    | [_], _ => rfl
  · rcases Nat.lt_or_ge 22 code.toNat with unknown | known
    · exact decodeRequest_unknown code tag args (.inr unknown)
    · exact decodeRequest_miscounted code tag args known (fun g => other (BitVec.eq_of_toNat_eq g)) wrong
  · exact (if_neg drain).trans (if_neg abort)

/-- R176: a good frame whose request is in no table. -/
theorem decodeInbound_badRequest (code tag : Byte) (args extra : List Byte) (short : args.length ≤ 2041)
    (bad : decodeRequest code tag args = .badRequest tag) :
    decodeInbound (linkFrame 1#8 (code :: tag :: args) ++ extra) = .badRequest tag :=
  (decodeInbound_frame 1#8 (code :: tag :: args) extra (.inl rfl) (by simp only [List.length_cons]; omega)).trans bad

/-- Settles O12: the end of an exchange by its kind, its outbound frame and the bytes that came in; and what bytes are read as. -/
theorem exchangeEndJudgesInbound : Obligations.ExchangeEndJudgesInbound := by
  refine ⟨⟨?carried, ?uncarried⟩, ?judged, ?bytes⟩
  case carried =>
    rintro s b e i he live request final ⟨held, -, -⟩
    rw [exec_exchangeEnd_live s b e he live final]
    exact (State.judgeInbound_request _ b i held request).symm
  case uncarried =>
    refine fun s b e he => ⟨exec_exchangeEnd_shut s b e he, fun live cut failed => ?_, fun tag live cut bad ⟨_, opened, room⟩ => ?_,
      fun q live frame final whole silent closing answer => ?_, fun kind shut => ?_, fun kind shut => ?_⟩
    · rw [exec_exchangeEnd_live s b e he live (e.clockedFinal_cut _ cut), State.settleExchange_cut _ e _ cut,
        State.judgeInbound_failed _ b failed]
      rfl
    · rw [exec_exchangeEnd_live s b e he live (e.clockedFinal_cut _ cut), State.settleExchange_cut _ e _ cut,
        s.deselected.judgeInbound_badRequest b tag bad opened room]
      rfl
    · have settled := s.deselected.settleExchange_whole e b.length q frame whole
      rw [exec_exchangeEnd_shuts s _ b e false false he live settled (by rw [e.clockedFinal_eq q _ frame final, whole])
        closing (by simp [silent]) (by simp [silent])]
      cases h : q.frame with
      | roundReport r => simp [h, Outbound.isAnswer] at answer
      | _ => rfl
    · rw [exec_exchangeEnd_closing s b e he kind]
      obtain ⟨silent, failed, good⟩ := s.deselected.judgeClosing_shut b shut
      exact ⟨fun d => congrArg Host.Outcome.next (silent d), fun d => congrArg Host.Outcome.next (failed d),
        fun d => congrArg Host.Outcome.next (good d)⟩
    · rw [exec_exchangeEnd_closing s b e he kind, s.deselected.judgeClosing_unshut b shut]
      rfl
  case judged =>
    rintro s t b e bits he live rfl cut whole
    have settled : s.deselected.settleExchange e b.length = t := s.settleExchange_deselected t e b.length cut
      fun q frame w => by
        rw [whole q frame w, State.markReported_eq]
        rfl
    refine ⟨fun n => ⟨e.whole_iff n, e.clockedFinal_iff n⟩, fun final => ?_, fun q good failed frame final w closing hg hf => ?_⟩
    · have ends := exec_exchangeEnd_live s b e he live final
      rw [settled] at ends
      refine ⟨fun d => ?_, fun d => ?_, fun i held d => ?_, fun tag d => ⟨fun ⟨opened, room⟩ => ?_, fun discards => ?_⟩⟩
      · rw [ends, t.judgeInbound_none b d]
        rfl
      · rw [ends, t.judgeInbound_failed b d]
        rfl
      · have held' : t.held = false := by
          obtain ⟨link, ring, -, -, frame⟩ := s.deselected.settleExchange_frame e b.length
          rw [← settled, frame]
          exact held
        rw [ends, t.judgeInbound_request b i held' d]
      · rw [ends, t.judgeInbound_badRequest b tag d opened room]
      · rw [ends, t.judgeInbound_discards b (.inl ⟨tag, d⟩) discards]
        rfl
    · have clocked : e.clockedFinal b.length = true := by rw [e.clockedFinal_eq q _ frame final, w]
      rw [exec_exchangeEnd_shuts s t b e good failed he live settled clocked closing hg hf, whole q frame w]
  case bytes =>
    refine ⟨rfl, decodeInbound_zero, decodeInbound_unknown, fun kind h k => ⟨?_, ?_⟩, fun kind h l more n k hn fails => ?_, ?_⟩
    · exact decodeInbound_cut kind k [] (by simp)
    · exact decodeInbound_cut kind k [h] (by simp)
    · exact decodeInbound_failed kind k h l more n hn fails
    · rintro frame code tag args extra short rfl bad
      exact decodeInbound_badRequest code tag args extra short (decodeRequest_bad code tag args bad)

end Sys2Proof.Machine
end

section
/-! SUPPORT. The outbound queue: which frames join it and which are refused, by their class and the link state. -/

namespace Sys2Proof.Machine

/-! ### The classes of frames (10.4) -/

theorem Outbound.isAnswer_iff (f : Outbound) : f.isAnswer = true ↔ (∃ tag status result, f = .reply tag status result) ∨
    ∃ tag c position data, f = .relay tag c position false data := by
  cases f <;> simp [Outbound.isAnswer]

/-! ### A frame is offered (R177) -/

section Offer

variable (s : State) (f : Outbound)

theorem State.offer_accepted (h : s.link.accepts f = true) : s.offer f = s.queued f :=
  congrArg (fun l : HostLink => { s with link := l }) (if_pos h)

theorem State.offer_refused (h : s.link.accepts f = false) :
    s.offer f = { s with link := { s.link with unsolicitedDiscard := true } } :=
  congrArg (fun l : HostLink => { s with link := l }) (if_neg (Bool.eq_false_iff.1 h))

/-- Entry 38: every frame that is offered to a SHUT link is lost. -/
theorem State.offer_shut (h : s.link.state = .shut) :
    s.offer f = { s with link := { s.link with unsolicitedDiscard := true } } :=
  s.offer_refused f (by unfold HostLink.accepts; rw [h])

theorem State.offer_answer (answer : f.isAnswer = true) (h : s.link.state ≠ .shut) : s.offer f = s.queued f := by
  refine s.offer_accepted f ?_
  unfold HostLink.accepts
  rw [answer]
  cases state : s.link.state with
  | shut => exact absurd state h
  | closing => rfl
  | opened => rfl
  | resetting => rfl

variable (unsolicited : f.isAnswer = false)

include unsolicited

theorem State.offer_unsolicited_open (h : s.link.state = .opened ∨ s.link.state = .resetting) : s.offer f =
    if s.link.unsolicited < 12 then s.queued f else { s with link := { s.link with unsolicitedDiscard := true } } := by
  have accepts : s.link.accepts f = Decidable.decide (s.link.unsolicited < 12) := by
    unfold HostLink.accepts
    rw [unsolicited]
    rcases h with h | h <;> rw [h] <;> rfl
  split
  · exact s.offer_accepted f (accepts.trans (decide_eq_true ‹_›))
  · exact s.offer_refused f (accepts.trans (decide_eq_false ‹_›))

theorem State.offer_unsolicited_closed (h : s.link.state = .closing ∨ s.link.state = .shut) :
    s.offer f = { s with link := { s.link with unsolicitedDiscard := true } } := by
  refine s.offer_refused f ?_
  unfold HostLink.accepts
  rcases h with h | h <;> rw [h]
  exact unsolicited

end Offer

/-! ### A request is offered (R139, R171, R175, R181) -/

theorem exec_request_discarded (s : State) (i : Instr) (q : i.isRequest = true) (held : s.held = false)
    (h : s.link.Discards) : exec i s = .next { s with link := s.link.discard } := by
  rw [exec_request_inbound i s q held, s.takeInbound_discards _ h]

/-- A request that reaches a SHUT link, or blocks held in reset, is not judged. -/
theorem exec_request_unjudged (s : State) (i : Instr) (q : i.isRequest = true) (h : s.link.state = .shut ∨ s.held = true) :
    exec i s = .next s := by
  cases held : s.held with
  | false => rw [exec_request_inbound i s q held, s.takeInbound_shut _ (h.resolve_right (by simp [held]))]
  | true =>
    have other : ∀ j : Instr, j.isRequest = false → i ≠ j := fun j h e => by
      rw [e, h] at q
      cases q
    exact exec_held_other i s held (other _ rfl) (other _ rfl) (other _ rfl) (fun _ => other _ rfl) (fun _ _ => other _ rfl)
      (fun _ _ => other _ rfl) (fun _ => other _ rfl) fun _ => other _ rfl

/-! ### Notices that a sleep state withholds -/

theorem State.notifyAwake_awake (s : State) (n : Notice)
    (h : s.sleep.op = .run ∨ s.sleep.op = .unconfigured ∨ s.sleep.op = .waking) : s.notifyAwake n = s.notify n := by
  unfold State.notifyAwake
  rcases h with h | h | h <;> rw [h]

theorem State.notifyAwake_asleep (s : State) (n : Notice)
    (h : s.sleep.op = .entering ∨ s.sleep.op = .asleep ∨ s.sleep.op = .patrol) : s.notifyAwake n = s := by
  unfold State.notifyAwake
  rcases h with h | h | h <;> rw [h]

/-- Settles O9: the frames by class and link state, the requests by link state, and what each kind of offer offers. -/
theorem framesAreRefusedOrDiscarded : Obligations.FramesAreRefusedOrDiscarded := by
  refine ⟨⟨fun s f => ⟨s.offer_answer f, s.offer_unsolicited_open f, s.offer_unsolicited_closed f⟩,
    fun s i q => ⟨exec_request_discarded s i q, exec_request_unjudged s i q⟩⟩,
    fun s f tag status result n c position late data r => ?_⟩
  exact ⟨s.offer_shut f, f.isAnswer_iff, rfl, rfl, rfl, rfl, rfl, fun record => (s.reportRound_record _ r record).1,
    s.notifyAwake_awake n, s.notifyAwake_asleep n⟩

end Sys2Proof.Machine
end

section
/-! SUPPORT. SLEEP: the table of its refusals, and the entry to sleep that it begins where no row applies. -/

namespace Sys2Proof.Machine

/-! ### The refusals (R137) -/

/-- R137: a chain whose forward queue is not empty, or whose transaction in flight belongs to a PASS. -/
theorem ChainPort.holdsPass_iff (p : ChainPort) : p.holdsPass = true ↔ p.forward ≠ [] ∨ ∃ o pass, o.owner = .pass pass ∧
    ((∃ tag ended timeout, p.transaction = some (.order o tag ended timeout)) ∨
      ∃ settle, p.transaction = some (.broadcast o settle)) := by
  unfold ChainPort.holdsPass
  rw [Bool.or_eq_true]
  refine or_congr (by simp) ?_
  cases p.transaction with
  | none => simp
  | some t =>
    cases t with
    | trigger => simp
    | order o tag ended timeout => cases owner : o.owner <;> simp [owner]
    | broadcast o settle => cases owner : o.owner <;> simp [owner]

open Classical in
/-- R137: the table of SLEEP, row by row. -/
theorem State.sleepRefusal_eq (s : State) : s.sleepRefusal =
    if s.sleep.op ≠ .run then some (.refusedState, .state)
    else if s.allOpen = false then some (.refusedState, .contactor)
    else if ∃ k, (s.channel k).welded = true then some (.refusedState, .welded)
    else if s.sequencer.state ≠ .idle then some (.refusedState, .sequencer)
    else if ∃ k, (s.channel k).settleExpiry ≠ none then some (.busy, .settle)
    else if s.update.state ≠ .closed then some (.busy, .update)
    else if ∃ c ∈ s.captures.list, c.complete = false then some (.busy, .capture)
    else if ∃ c, (s.port c).survey ≠ .idle then some (.busy, .survey)
    else if ∃ c, (s.port c).holdsPass = true then some (.busy, .pass)
    else none := by
  have settles : ∀ k, (s.channel k).settleExpiry.isSome = true ↔ (s.channel k).settleExpiry ≠ none := fun k =>
    Option.isSome_iff_ne_none
  have captures : (s.captures.list.any fun c => !c.complete) = true ↔ ∃ c ∈ s.captures.list, c.complete = false := by simp
  unfold State.sleepRefusal
  simp only [ChannelId.any_all, settles, captures, exists_chain, Bool.or_eq_true,
    Bool.not_eq_true]

/-! ### The entry to sleep (R138, R139, R144, R145) -/

theorem startTracker_watched (w : WakeSetting) (level : Bool) (on : w.mode ≠ .off) (continuous : w.pulsed = false) :
    startTracker w level = ⟨some level, none, none, none, none⟩ := if_neg (by simp [on, continuous])

theorem startTracker_unwatched (w : WakeSetting) (level : Bool) (h : w.mode = .off ∨ w.pulsed = true) :
    startTracker w level = ⟨none, none, none, none, none⟩ := if_pos h

theorem WakeSetting.sensed_iff (w : WakeSetting) : WakeSetting.sensed w = true ↔ w.mode ≠ .off ∧ w.pulsed = true := by
  unfold WakeSetting.sensed
  simp

theorem PatrolTable.pulses_iff (p : PatrolTable) : PatrolTable.pulses p = true ↔
    ∃ x ∈ [p.inputs.w1, p.inputs.w2, p.inputs.w3], x.mode ≠ .off ∧ x.pulsed = true := by
  unfold PatrolTable.pulses
  simp [WakeSetting.sensed_iff, or_assoc]

theorem State.stopCursor_eq (s : State) : s.stopCursor = { s with cursor := { s.cursor with
    state := if s.cursor.state = .running ∨ s.cursor.state = .starting then .stopping else s.cursor.state } } := by
  have stays : ∀ x, s.cursor.state = x → s = { s with cursor := { s.cursor with state := x } } := fun _ h => by rw [← h]
  unfold State.stopCursor
  cases state : s.cursor.state with
  | running => rfl
  | starting => rfl
  | stopping => exact stays _ state
  | stopped => exact stays _ state

theorem State.startTrackers_eq (s : State) (i : Image) (h : s.image = some i) : s.startTrackers = { s with
    sleep := { s.sleep with trackers :=
      ⟨startTracker i.patrolTable.inputs.w1 s.pins.wake.w1, startTracker i.patrolTable.inputs.w2 s.pins.wake.w2,
        startTracker i.patrolTable.inputs.w3 s.pins.wake.w3⟩ }
    sleepWork := { s.sleepWork with
      senseOut := if PatrolTable.pulses i.patrolTable then true else s.sleepWork.senseOut
      pulseStart := if PatrolTable.pulses i.patrolTable then some s.time else s.sleepWork.pulseStart } } := by
  unfold State.startTrackers
  rw [s.patrol_of_image h]
  dsimp only
  cases PatrolTable.pulses i.patrolTable <;> rfl

/-- R138, R139: an entry to sleep that has begun, but for the wake inputs. -/
def State.draining (s : State) : State := { s with
  cursor := { s.cursor with
    state := if s.cursor.state = .running ∨ s.cursor.state = .starting then .stopping else s.cursor.state }
  stream := { s.stream with state := .absent, lossExpiry := none }
  ports := ⟨{ s.ports.a with kept := [] }, { s.ports.b with kept := [] }⟩
  link := { s.link with state := .closing }
  sleep := { s.sleep with
    op := .entering, phase := some .draining, shutExpiry := some (s.time + 50000#32), missCount := 0, patrolCount := 0
    latched := .empty }
  sleepWork := { s.sleepWork with
    phaseExpiry := none, awaiting := .both false, roused := .both false, wakingSince := none } }

theorem State.enterSleep_eq (s : State) : s.enterSleep = s.draining.startTrackers := by
  delta State.enterSleep
  rw [s.stopCursor_eq]
  rfl

theorem State.requestSleep_refused (s : State) (tag : Byte) (status : ReplyStatus) (reason : Reason)
    (h : s.sleepRefusal = some (status, reason)) : s.requestSleep tag = s.refuse tag status reason := by
  unfold State.requestSleep
  rw [h]

theorem exec_sleep (s : State) (tag : Byte) (ready : s.linkReady) :
    exec (.sleep tag) s = .next (s.taken.requestSleep tag).finish := exec_request (.sleep tag) s rfl ready

/-- R139: the DONE of a SLEEP that the link has taken, marked as the last frame. -/
theorem State.requestSleep_taken (s : State) (tag : Byte) (ready : s.linkReady) (h : s.sleepRefusal = none) :
    s.taken.requestSleep tag = State.enterSleep { s.taken with
      link := { s.taken.link with queue := s.link.queue ++ [⟨.reply tag .done .none, true⟩] } } := by
  have accepts : s.taken.link.accepts (.reply tag .done .none) = true := by
    unfold HostLink.accepts
    rw [show s.taken.link.state = .opened from ready.2.1]
    rfl
  have taken : s.taken.sleepRefusal = none := h
  unfold State.requestSleep State.replyFinal HostLink.offer
  rw [taken, if_pos accepts]
  rfl

/-- Settles O48: the rows of the table in their order, and the entry to sleep where none applies. -/
theorem sleepAnswers : Obligations.SleepAnswers := by
  refine ⟨⟨⟨fun s tag ready => ⟨fun status reason h => ?answered, ?row, fun run => ?rows⟩, ?taken⟩, ?starts⟩,
    ChainPort.holdsPass_iff⟩
  case answered =>
    rw [exec_sleep s tag ready, s.taken.requestSleep_refused tag status reason h, s.taken_refuse ready]
  case row => exact fun asleep => s.sleepRefusal_eq.trans (if_pos asleep)
  case rows =>
    have table := s.sleepRefusal_eq
    rw [if_neg (not_not.2 run)] at table
    refine ⟨fun closed => table.trans (if_pos closed), fun opened welded => ?_, fun opened sound => ?_⟩ <;>
      rw [if_neg (by simp [opened])] at table
    · exact table.trans (if_pos welded)
    rw [if_neg (by simp [sound])] at table
    refine ⟨fun busy => table.trans (if_pos busy), fun idle => ?_⟩
    rw [if_neg (not_not.2 idle)] at table
    refine ⟨fun settling => table.trans (if_pos settling), fun settled => ?_⟩
    rw [if_neg (by simp [settled])] at table
    refine ⟨fun updating => table.trans (if_pos updating), fun closed capturing => ?_, fun closed complete => ?_⟩ <;>
      rw [if_neg (not_not.2 closed)] at table
    · exact table.trans (if_pos capturing)
    rw [if_neg (by simpa using complete)] at table
    refine ⟨fun surveying => table.trans (if_pos surveying), fun quiet => ?_⟩
    rw [if_neg (by simp [quiet])] at table
    exact ⟨fun passing => table.trans (if_pos passing), fun free => table.trans (if_neg (by simp [free]))⟩
  case taken =>
    rintro s u tag i ready none_ image rfl
    rw [exec_sleep s tag ready, s.requestSleep_taken tag ready none_, State.enterSleep_eq, State.startTrackers_eq _ i ?_]
    · rfl
    · exact image
  case starts =>
    exact fun w level p => ⟨startTracker_watched w level, startTracker_unwatched w level, PatrolTable.pulses_iff p⟩

end Sys2Proof.Machine
end

section
/-! SUPPORT. The shut of the link, the patrol timer, and a patrol from its judgement to its end. -/

namespace Sys2Proof.Machine

/-! ### The shut expiry (R139) -/

theorem Exchange.closing_eq (e : Exchange) : e.closing = if e.kind = .live then { e with kind := .closing } else e := by
  unfold Exchange.closing
  cases kind : e.kind <;> rfl

theorem State.shutHostLink_eq (s : State) : s.shutHostLink = { s with
    link := { s.link with
      state := .shut, queue := [], owed := 0, exchange := s.link.exchange.map fun e =>
        if e.kind = .live then { e with kind := .closing } else e }
    sleep := { s.sleep with shutExpiry := none } } := by
  unfold State.shutHostLink HostLink.shutLink
  rw [show Exchange.closing = _ from funext Exchange.closing_eq]

/-- R139: the shut expiry, by whether the exchange in progress has clocked the DONE out whole. -/
theorem exec_shutExpiry_closing (s : State) (due : Instant) (h : s.held = false) (state : s.link.state = .closing)
    (expiry : s.sleep.shutExpiry = some due) (r : reached due s.time = true) :
    (s.finalClocked = false → exec .shutExpiry s = .next s.shutHostLink.finish) ∧
      (s.finalClocked = true → exec .shutExpiry s = .next s) := by
  refine ⟨fun f => exec_shutExpiry s h (s.shutDue_iff.2 ⟨state, ⟨due, expiry, r⟩, f⟩), fun f => ?_⟩
  have early : s.shutDue = false := by simp [State.shutDue, f]
  exact congrArg Host.Outcome.next (s.timed_early _ _ early)

/-! ### The patrol timer (R142) -/

theorem State.beginPatrol_eq (s : State) (i : Image) (t : PatrolTimer) (image : s.image = some i)
    (timer : s.sleep.patrolTimer = some t) : s.beginPatrol = { s with
      sleep := { s.sleep with
        op := .patrol, phase := some .oscStart, patrolCount := min (s.sleep.patrolCount + 1) 65535
        patrolTimer := some ⟨t.next + micros (i.patrolTable.interval * 1000000), i.patrolTable.interval * 1000000⟩ }
      sleepWork := { s.sleepWork with
        phaseExpiry := some (s.time + 500#32), awaiting := .both false, roused := .both false } } := by
  unfold State.beginPatrol
  rw [s.patrol_of_image image]
  unfold State.setSleep
  dsimp only
  rw [timer]
  rfl

/-! ### The judgement of a patrol (R143) -/

section Judgement

variable (count limit : Nat) (r : RoundRecord)

theorem RoundRecord.missed_iff (r : RoundRecord) : r.missed = true ↔
    ∃ p ∈ r.parts, p.state = .sent ∧ ∃ x ∈ p.readings, x.status = .missing := by
  unfold RoundRecord.missed
  simp

theorem judgeMiss_missed (h : ∃ p ∈ r.parts, p.state = .sent ∧ ∃ x ∈ p.readings, x.status = .missing) :
    judgeMiss count limit r = if limit ≤ count + 1 then (0, true) else (count + 1, false) :=
  if_pos (r.missed_iff.2 h)

theorem judgeMiss_whole (sent : ∃ p ∈ r.parts, p.state = .sent)
    (whole : ∀ p ∈ r.parts, p.state = .sent → ∀ x ∈ p.readings, x.status ≠ .missing) :
    judgeMiss count limit r = (0, false) := by
  unfold judgeMiss
  rw [if_neg fun h => ?_, if_pos (by simpa using sent)]
  obtain ⟨p, hp, state, x, hx, missing⟩ := r.missed_iff.1 h
  exact whole p hp state x hx missing

theorem judgeMiss_unsent (unsent : ∀ p ∈ r.parts, p.state ≠ .sent) : judgeMiss count limit r = (count, false) := by
  unfold judgeMiss
  rw [if_neg fun h => ?_, if_neg (by simpa using unsent)]
  obtain ⟨p, hp, state, -⟩ := r.missed_iff.1 h
  exact unsent p hp state

end Judgement

/-- R143: what the close of the PATROL round leads to, by whether a cause is latched once it is judged. -/
theorem State.judgePatrol_eq (s u : State) (i : Image) (r : RoundRecord) (judged : Nat × Bool) (image : s.image = some i)
    (hj : judged = judgeMiss s.sleep.missCount i.patrolTable.missLimit r)
    (hu : u = if judged.2 then ({ s with sleep := { s.sleep with missCount := judged.1 } } : State).latch .patrolMiss
      else { s with sleep := { s.sleep with missCount := judged.1 } }) :
    s.judgePatrol r = if u.sleep.latched = .empty then u.restPatrol else u.wakeRunning := by
  simp only [← WakeSet.isEmpty_iff]
  unfold State.judgePatrol
  rw [s.patrol_of_image image]
  dsimp only
  rw [← hj, hu]
  rfl

/-! ### The end of a patrol (R143) -/

theorem State.restPatrol_eq (s : State) (on : Chain → Bool) (hon : ∀ c, on c = s.sleepWork.roused.get c) : s.restPatrol =
    if on .A = false ∧ on .B = false then (s.restSent on).endPatrol else s.restSent on := by
  have chains : s.rousedChains = Chain.all.filter on := List.filter_congr fun c _ => (hon c).symm
  have sent : (s.setSleep fun x => { x with phase := some .resting }).broadcast .rest (Chain.all.filter on) = s.restSent on :=
    State.broadcast_eq _ _ on
  unfold State.restPatrol
  dsimp only
  rw [chains, Chain.filter_isEmpty]
  by_cases none_ : on .A = false ∧ on .B = false
  · have empty : Chain.all.filter on = [] := by simp [Chain.all, none_]
    rw [empty] at sent
    rw [if_pos none_, if_pos (decide_eq_true none_), ← sent]
    rfl
  · rw [if_neg none_, if_neg (by simpa using none_), sent]

theorem State.endPatrol_asleep (s : State) (h : s.sleep.latched = .empty) : s.endPatrol = { s with
    oscillator := false
    channels := ⟨{ s.channels.k1 with debounceExpiry := none }, { s.channels.k2 with debounceExpiry := none },
      { s.channels.k3 with debounceExpiry := none }, { s.channels.k4 with debounceExpiry := none }⟩
    sleep := { s.sleep with op := .asleep, phase := none } } := if_pos ((WakeSet.isEmpty_iff _).2 h)

theorem State.endPatrol_wakes (s : State) (h : s.sleep.latched ≠ .empty) : s.endPatrol = s.wakeRunning :=
  if_neg (mt (WakeSet.isEmpty_iff _).1 h)

/-- Settles O49: the two expiries, the miss count, the judgement by what is latched, and the RESTs by what was roused. -/
theorem patrolsBeginAndEnd : Obligations.PatrolsBeginAndEnd := by
  refine ⟨⟨fun s held => ⟨?shut, fun i next image asleep timer => ?patrol⟩, fun count limit r => ?miss⟩, ?judged, ?ended⟩
  case shut =>
    rintro due clocked rfl state expiry r
    obtain ⟨shuts, waits⟩ := exec_shutExpiry_closing s due held state expiry r
    rw [← s.shutHostLink_eq]
    exact ⟨fun c => shuts (Bool.eq_false_iff.2 fun f => c (s.finalClocked_iff.1 f)), fun c => waits (s.finalClocked_iff.2 c)⟩
  case patrol =>
    rw [exec_patrolTimerExpiry s held (s.patrolDue_iff.2 ⟨asleep, next, timer⟩), s.beginPatrol_eq i _ image timer]
  case miss => exact ⟨judgeMiss_missed count limit r, judgeMiss_whole count limit r, judgeMiss_unsent count limit r⟩
  case judged =>
    intro s u i r judged image hj hu
    rw [s.judgePatrol_eq u i r judged image hj hu]
    refine ⟨fun h => if_pos h, fun h => if_neg h, fun t step => ?_⟩
    unfold State.afterClose
    rw [step]
  case ended =>
    rintro s v w on hon rfl
    refine ⟨s.restPatrol_eq on hon, s.endPatrol_asleep, ?_⟩
    rintro rfl
    exact ⟨rfl, s.endPatrol_wakes⟩

end Sys2Proof.Machine
end

section
/-! SUPPORT. The wake inputs: the filters of those watched continuously, the samples of those watched in pulses, and the latched
causes. -/

namespace Sys2Proof.Machine

/-! ### The settings of the working image (R136) -/

theorem State.wakeSetting_of_image (s : State) (n : WakeInput) (i : Image) (h : s.image = some i) :
    s.wakeSetting n = some (i.patrolTable.inputs.get n) := by
  unfold State.wakeSetting
  rw [s.patrol_of_image h]
  rfl

theorem State.pulses_of_image (s : State) (i : Image) (h : s.image = some i) :
    s.pulsePeriod = i.patrolTable.pulsePeriod ∧ s.pulseOn = i.patrolTable.pulseOn := by
  unfold State.pulsePeriod State.pulseOn
  rw [s.patrol_of_image h]
  exact ⟨rfl, rfl⟩

/-! ### Latched causes (R147) -/

section Latch

variable (s : State) (cause : WakeCause)

theorem State.latch_joins (h : s.sleep.op = .entering ∨ s.sleep.op = .patrol ∨ s.sleep.op = .waking) :
    s.latch cause = { s with sleep := { s.sleep with latched := s.sleep.latched.add cause } } := by
  unfold State.latch
  rcases h with h | h | h <;> rw [h]

theorem State.latch_wakes (h : s.sleep.op = .asleep) : s.latch cause = { s with
    sleep := { s.sleep with
      latched := s.sleep.latched.add cause, op := .waking, phase := some .oscStart, patrolTimer := none }
    sleepWork := { s.sleepWork with
      phaseExpiry := some (s.time + 500#32), wakingSince := some s.time, awaiting := .both false
      roused := .both false } } := by
  unfold State.latch
  rw [h]
  rfl

/-- R147: a cause joins the set, and the others stay as they were. -/
theorem WakeSet.add_has (l : WakeSet) (cause other : WakeCause) :
    (l.add cause).has other = (l.has other || Decidable.decide (other = cause)) := by
  cases cause with
  | input n =>
    cases other with
    | input m => cases n <;> cases m <;> simp [WakeSet.add, WakeSet.has, PerWake.set, PerWake.get]
    | _ => simp [WakeSet.add, WakeSet.has]
  | _ => cases other <;> simp [WakeSet.add, WakeSet.has]

end Latch

/-- R144: the changes of level that each mode names. -/
theorem WakeMode.names_iff (m : WakeMode) (high : Bool) : WakeMode.names m high = true ↔
    m = .either ∨ (m = .rise ∧ high = true) ∨ (m = .fall ∧ high = false) := by
  cases m <;> simp [WakeMode.names]

/-- R144: a new filtered level, by whether the mode names the change. -/
theorem State.judgeWake_eq (s : State) (n : WakeInput) (w : WakeSetting) (level : Bool) (h : s.wakeSetting n = some w) :
    s.judgeWake n level = if WakeMode.names w.mode level = true then s.latch (.input n) else s := by
  unfold State.judgeWake
  rw [h]

/-! ### An input that is watched continuously (R144) -/

section Level

variable (t : State) (n : WakeInput) (high : Bool)

theorem State.wakeLevel_unset (h : t.wakeSetting n = none) : t.wakeLevel n high = t := by
  unfold State.wakeLevel
  rw [h]

/-- R145: an input that is watched in pulses is judged by its samples alone. -/
theorem State.wakeLevel_pulsed (w : WakeSetting) (h : t.wakeSetting n = some w) (pulsed : w.pulsed = true)
    (on : w.mode ≠ .off) : t.wakeLevel n high = t := by
  unfold State.wakeLevel
  rw [h]
  exact if_pos ((WakeSetting.sensed_iff w).2 ⟨on, pulsed⟩)

theorem State.wakeLevel_tracked (w : WakeSetting) (h : t.wakeSetting n = some w) (cont : w.pulsed = false ∨ w.mode = .off) :
    t.wakeLevel n high = t.setTracker n ((t.sleep.trackers.get n).takeLevel high (t.time + micros w.filter)) := by
  unfold State.wakeLevel
  rw [h]
  refine if_neg fun sensed => ?_
  obtain ⟨on, pulsed⟩ := (WakeSetting.sensed_iff w).1 sensed
  exact cont.elim (fun c => by cases c.symm.trans pulsed) on

end Level

/-- The level at the pin of a wake input. -/
def State.withWakePin (s : State) (n : WakeInput) (high : Bool) : State :=
  { s with pins := { s.pins with wake := s.pins.wake.set n high } }

@[simp] theorem State.withWakePin_sleep (s : State) (n : WakeInput) (high : Bool) : (s.withWakePin n high).sleep = s.sleep := rfl

/-- A tracker that stays as it is. -/
theorem State.setTracker_self (s : State) (n : WakeInput) : s.setTracker n (s.sleep.trackers.get n) = s := by
  unfold State.setTracker
  rw [PerWake.set_get]

section Change

variable (s : State) (n : WakeInput) (high : Bool)

theorem exec_wakeInputChange_same (h : s.pins.wake.get n = high) : exec (.wakeInputChange n high) s = .next s :=
  congrArg Host.Outcome.next (if_pos h)

theorem exec_wakeInputChange_new (held : s.held = false) (new : s.pins.wake.get n ≠ high) :
    exec (.wakeInputChange n high) s = .next ((s.withWakePin n high).wakeLevel n high) :=
  congrArg Host.Outcome.next ((if_neg new).trans (State.unlessHeld_eq _ held))

end Change

theorem Tracker.takeLevel_inactive (t : Tracker) (high : Bool) (expiry : Instant) (h : t.filtered = none) :
    t.takeLevel high expiry = t := by
  unfold Tracker.takeLevel
  rw [h]

/-- R144: a level that differs from the filtered one starts the filter, and a return to it ends it. -/
theorem Tracker.takeLevel_filtered (t : Tracker) (high f : Bool) (expiry : Instant) (h : t.filtered = some f) :
    t.takeLevel high expiry = { t with
      pending := if high = f then none else some high
      pendingExpiry := if high = f then none else some expiry } := by
  unfold Tracker.takeLevel
  rw [h]
  by_cases same : high = f
  · simp only [if_pos same]
  · simp only [if_neg same]

/-- R144: the filter expires: the filtered level changes, and is judged. -/
theorem exec_wakeFilterExpiry_pending (s : State) (n : WakeInput) (w : WakeSetting) (high : Bool) (due : Instant)
    (held : s.held = false) (h : s.wakeSetting n = some w) (pending : (s.sleep.trackers.get n).pending = some high)
    (expiry : (s.sleep.trackers.get n).pendingExpiry = some due) (r : reached due s.time = true) :
    exec (.wakeFilterExpiry n) s = .next (if WakeMode.names w.mode high = true then
        (s.setTracker n { s.sleep.trackers.get n with
          filtered := some high, pending := none, pendingExpiry := none }).latch (.input n)
      else s.setTracker n { s.sleep.trackers.get n with
        filtered := some high, pending := none, pendingExpiry := none }) := by
  rw [exec_wakeFilterExpiry s n held ((expired_iff _ _).2 ⟨due, expiry, r⟩)]
  unfold State.wakeFiltered
  dsimp only
  rw [pending]
  exact congrArg Host.Outcome.next (State.judgeWake_eq _ n w high h)

/-! ### The pulses (R145) -/

section Pulses

variable (s : State) (last : Instant) (held : s.held = false) (pulse : s.sleepWork.pulseStart = some last)

include held pulse

theorem exec_sensePulseStart_due (off : s.sleepWork.senseOut = false)
    (r : reached (last + micros s.pulsePeriod) s.time = true) : exec .sensePulseStart s = .next { s with
      sleepWork := { s.sleepWork with senseOut := true, pulseStart := some (last + micros s.pulsePeriod) } } := by
  rw [exec_sensePulseStart s held (s.pulseStartDue_iff.2 ⟨off, last, pulse, r⟩)]
  unfold State.nextPulse
  rw [pulse]
  rfl

theorem exec_sensePulseSample_due (on : s.sleepWork.senseOut = true)
    (r : reached (last + micros s.pulseOn) s.time = true) : exec .sensePulseSample s =
      .next (((({ s with sleepWork := { s.sleepWork with senseOut := false } } : State).sampleInput .wake1).sampleInput
        .wake2).sampleInput .wake3) :=
  exec_sensePulseSample s held (s.pulseSampleDue_iff.2 ⟨on, last, pulse, r⟩)

end Pulses

/-! ### An input that is watched in pulses (R145) -/

section Sample

variable (t : Tracker) (level : Bool)

theorem Tracker.takeSample_agrees (h : t.filtered = none ∨ t.filtered = some level) :
    t.takeSample level = { t with filtered := some level, last := some level, previous := t.last } ∧
      t.changesTo level = false := by
  unfold Tracker.takeSample Tracker.changesTo
  rcases h with h | h <;> rw [h] <;> simp

theorem Tracker.takeSample_first (h : t.filtered = some (!level)) (single : t.last ≠ some level) :
    t.takeSample level = { t with last := some level, previous := t.last } ∧ t.changesTo level = false := by
  unfold Tracker.takeSample Tracker.changesTo
  rw [h]
  simp [single]

theorem Tracker.takeSample_second (h : t.filtered = some (!level)) (again : t.last = some level) :
    t.takeSample level = { t with filtered := some level, last := some level, previous := some level } ∧
      t.changesTo level = true := by
  unfold Tracker.takeSample Tracker.changesTo
  rw [h, again]
  simp

variable (s : State) (n : WakeInput) (w : WakeSetting) (set : s.wakeSetting n = some w)

include set

theorem State.sampleInput_unsensed (h : w.mode = .off ∨ w.pulsed = false) : s.sampleInput n = s := by
  unfold State.sampleInput
  rw [set]
  refine if_neg fun sensed => ?_
  obtain ⟨on, pulsed⟩ := (WakeSetting.sensed_iff w).1 sensed
  exact h.elim on fun c => by cases c.symm.trans pulsed

theorem State.sampleInput_sensed (on : w.mode ≠ .off) (pulsed : w.pulsed = true) (ht : t = s.sleep.trackers.get n)
    (hl : level = s.pins.wake.get n) : s.sampleInput n =
      if t.changesTo level = true ∧ WakeMode.names w.mode level = true then
        (s.setTracker n (t.takeSample level)).latch (.input n)
      else s.setTracker n (t.takeSample level) := by
  subst ht hl
  have judged := fun u level => State.judgeWake_eq (s.setTracker n u) n w level set
  unfold State.sampleInput
  rw [set]
  dsimp only
  rw [if_pos ((WakeSetting.sensed_iff w).2 ⟨on, pulsed⟩), judged, ite_and]

end Sample

/-- Settles O51: the inputs by how they are watched, the pulses, the samples by the tracker that takes them, and the causes. -/
theorem wakeInputsAreWatched : Obligations.WakeInputsAreWatched := by
  refine ⟨⟨?watched, fun s n high held unset new => ?unset, ?pulses,
    fun s cause => ⟨s.latch_awake cause, s.latch_joins cause, s.latch_wakes cause, fun l => l.add_has cause⟩⟩, ?settings⟩
  case watched =>
    refine fun s n high w f held set => ⟨exec_wakeInputChange_same s n high, fun new cont inactive => ?_,
      fun new cont filtered => ?_, fun new pulsed on => ?_, fun due pending expiry r => ?_, WakeMode.names_iff w.mode high⟩
    · rw [exec_wakeInputChange_new s n high held new, (s.withWakePin n high).wakeLevel_tracked n high w set cont,
        Tracker.takeLevel_inactive ((s.withWakePin n high).sleep.trackers.get n) _ _ inactive, State.setTracker_self]
      rfl
    · rw [exec_wakeInputChange_new s n high held new, (s.withWakePin n high).wakeLevel_tracked n high w set cont,
        State.withWakePin_sleep, Tracker.takeLevel_filtered _ _ _ _ filtered]
      rfl
    · rw [exec_wakeInputChange_new s n high held new, (s.withWakePin n high).wakeLevel_pulsed n high w set pulsed on]
      rfl
    · rw [exec_wakeFilterExpiry_pending s n w high due held set pending expiry r]
      exact ⟨fun h => by rw [if_neg (by simp [h])], fun h => by rw [if_pos h]⟩
  case unset =>
    rw [exec_wakeInputChange_new s n high held new, (s.withWakePin n high).wakeLevel_unset n high unset]
    rfl
  case pulses =>
    refine fun s last held pulse => ⟨exec_sensePulseStart_due s last held pulse, exec_sensePulseSample_due s last held pulse,
      fun n w t level set ht hl => ⟨s.sampleInput_unsensed n w set, fun on pulsed => ?_⟩⟩
    have samples := State.sampleInput_sensed t level s n w set on pulsed ht hl
    refine ⟨fun agrees => ?_, fun differs single => ?_, fun u differs again hu => ?_⟩
    · obtain ⟨taken, same⟩ := t.takeSample_agrees level agrees
      rw [samples, taken, if_neg (by simp [same])]
    · obtain ⟨taken, same⟩ := t.takeSample_first level differs single
      rw [samples, taken, if_neg (by simp [same])]
    · obtain ⟨taken, changes⟩ := t.takeSample_second level differs again
      rw [samples, taken, ← hu]
      exact ⟨fun h => if_neg (by simp [h]), fun h => if_pos ⟨changes, h⟩⟩
  case settings =>
    intro s n t i image
    obtain ⟨period, on⟩ := s.pulses_of_image i image
    exact ⟨s.wakeSetting_of_image n i image, period, on, rfl⟩

end Sys2Proof.Machine
end

section
/-! SUPPORT. The beginning of an exchange, what its lines carry, the link status byte, and the bytes of the outbound frames. -/

namespace Sys2Proof.Machine

/-! ### HSEL# goes low (R146, R172) -/

/-- R171: an exchange that begins in a SHUT link shifts FFh. -/
def State.selectedShut (s : State) : State :=
  { s with link := { s.link with exchange := some ⟨.shut, 0xFF#8, none, [], false⟩ } }

theorem exec_exchangeBegin_live (s : State) (idle : s.link.exchange = none) (h : s.link.state ≠ .shut) :
    exec .exchangeBegin s = .next { s with
      link := { s.link with exchange := some ⟨.live, s.statusByte, s.link.queue.head?, [], false⟩ } } := by
  refine congrArg Host.Outcome.next ?_
  unfold State.beginExchange State.selected
  rw [idle, if_neg (by simp), if_neg h]

/-- R146: in a SHUT link the select is a wake cause. -/
theorem exec_exchangeBegin_shut (s : State) (idle : s.link.exchange = none) (h : s.link.state = .shut) :
    exec .exchangeBegin s = .next (s.selectedShut.latch .hostSelect) := by
  refine congrArg Host.Outcome.next ?_
  unfold State.beginExchange State.selected
  rw [idle, if_neg (by simp), if_pos h]
  rfl

/-! ### The lines of an exchange (R171 to R173) -/

theorem Exchange.hsdo_shut (e : Exchange) (n : Nat) (h : e.kind = .shut) : e.hsdo n = List.replicate n 0xFF#8 := by
  unfold Exchange.hsdo
  rw [h]

theorem Exchange.hsdo_frame (e : Exchange) (q : Queued) (n : Nat) (h : e.kind ≠ .shut) (frame : e.frame = some q) :
    e.hsdo n = ((e.status :: q.frame.bytes) ++ List.replicate n 0#8).take n := by
  unfold Exchange.hsdo
  rw [frame]
  cases kind : e.kind with
  | shut => exact absurd kind h
  | live => rfl
  | closing => rfl

/-- R172: with no frame in the queue a length of 0000h. -/
theorem Exchange.hsdo_fill (e : Exchange) (n : Nat) (h : e.kind ≠ .shut) (frame : e.frame = none) :
    e.hsdo n = ((e.status :: [0#8, 0#8, 0#8]) ++ List.replicate n 0#8).take n := by
  unfold Exchange.hsdo
  rw [frame]
  cases kind : e.kind with
  | shut => exact absurd kind h
  | live => rfl
  | closing => rfl

section Lines

variable (s : State) (e : Exchange) (he : s.link.exchange = some e)

include he

theorem State.hsdo_driven (high : s.pins.reset = .high) (n : Nat) : s.hsdo n = some (e.hsdo n) := by
  unfold State.hsdo
  rw [if_pos high, he]
  rfl

theorem State.hsdoBit_driven (high : s.pins.reset = .high) : s.hsdoBit = some e.hsdoBit := by
  unfold State.hsdoBit
  rw [if_pos high, he]
  rfl

theorem State.clockRises_samples (held : s.held = false) (hsdi : Bool) (low : e.clock = false) :
    s.clockRises hsdi =
      { s with link := { s.link with exchange := some { e with bits := e.bits ++ [hsdi], clock := true } } } := by
  unfold State.clockRises
  rw [State.unlessHeld_eq _ held, he]
  dsimp only [Option.map_some]
  rw [if_neg (by simp [low])]

/-- A second rising edge has the effect of one. -/
theorem State.clockRises_again (held : s.held = false) (hsdi : Bool) (high : e.clock = true) : s.clockRises hsdi = s := by
  unfold State.clockRises
  rw [State.unlessHeld_eq _ held, he]
  dsimp only [Option.map_some]
  rw [if_pos high, ← he]

theorem State.clockFalls_eq (held : s.held = false) :
    s.clockFalls = { s with link := { s.link with exchange := some { e with clock := false } } } := by
  unfold State.clockFalls
  rw [State.unlessHeld_eq _ held, he]
  rfl

theorem State.selectRises_eq : s.selectRises = { s with pending := s.pending ++ [.exchangeEnd (bytesOfBits e.bits)] } := by
  unfold State.selectRises
  rw [he]

end Lines

/-! ### The link status byte (R173) -/

theorem State.wakeCausesPending_iff (s : State) : s.wakeCausesPending = true ↔
    (∃ q ∈ s.link.queue, ∃ r, q.frame = .notice (.woke r)) ∨ s.sleep.latched ≠ .empty := by
  have empty : (!s.sleep.latched.isEmpty) = true ↔ s.sleep.latched ≠ .empty := by
    rw [Bool.not_eq_true', ← Bool.not_eq_true, ne_eq, WakeSet.isEmpty_iff]
  unfold State.wakeCausesPending
  rw [Bool.or_eq_true, List.any_eq_true, empty]
  simp only [Outbound.isWoke_iff]

theorem State.statusByte_shut (s : State) (h : s.link.state = .shut) : s.statusByte = 0xFF#8 := by
  unfold State.statusByte
  rw [h]

theorem State.statusByte_open (s : State) (h : s.link.state ≠ .shut) : s.statusByte = byteOfNat (4 - s.link.owed) |||
    flagByte [false, false, false, s.link.lastDiscarded, s.link.lastCheckFailed, s.update.latch, s.wakeCausesPending, false] := by
  have credit : min s.link.credit 4 = 4 - s.link.owed := Nat.min_eq_left (Nat.sub_le 4 s.link.owed)
  unfold State.statusByte
  rw [credit]
  cases state : s.link.state with
  | shut => exact absurd state h
  | opened => rfl
  | closing => rfl
  | resetting => rfl

/-- R179: HATTN#. -/
theorem State.attention_iff (s : State) : s.attention = true ↔ s.link.queue ≠ [] := by
  unfold State.attention
  simp

/-! ### The bytes of the outbound frames (R174, R184, 11.2.2) -/

theorem Outbound.payload_relay (tag : Byte) (c : Chain) (position : Nat) (late : Bool) (data : List Byte) :
    (Outbound.relay tag c position late data).payload =
      tag :: (if c = .A then 0#8 else 1#8) :: BitVec.ofNat 8 position :: (if late then 1#8 else 0#8) :: data := by
  cases c <;> cases late <;> rfl

/-- Settles O10: the beginning by link state and operating state, the lines, the status byte, and the bytes of the frames. -/
theorem exchangeBegins : Obligations.ExchangeBegins := by
  refine ⟨⟨fun s idle => ?begins, fun s e clocked high he => ?shifts⟩, fun s => ?status, ?lines, bytesOfBits_bits, ?frames,
    fun tag status result c position late data r n => ?payloads, rfl, ?reasons, ?notices, ?results⟩
  case begins =>
    refine ⟨exec_exchangeBegin_live s idle, fun shut op => ?_, fun shut op => ?_, fun shut op => ?_⟩ <;>
      rw [exec_exchangeBegin_shut s idle shut]
    · exact congrArg Host.Outcome.next (s.selectedShut.latch_awake .hostSelect op)
    · exact congrArg Host.Outcome.next (s.selectedShut.latch_joins .hostSelect op)
    · exact congrArg Host.Outcome.next (s.selectedShut.latch_wakes .hostSelect op)
  case shifts =>
    rw [s.hsdo_driven e he high]
    refine ⟨fun shut => congrArg some (e.hsdo_shut clocked shut), fun opened => ?_⟩
    cases frame : e.frame with
    | none => exact congrArg some (e.hsdo_fill clocked opened frame)
    | some q => exact congrArg some (e.hsdo_frame q clocked opened frame)
  case status =>
    refine ⟨s.statusByte_shut, fun opened => ?_, s.attention_iff⟩
    obtain ⟨credit, discarded, failed, latch, causes, last⟩ :=
      statusByte_bits _ _ _ _ _ (Nat.sub_le 4 s.link.owed) _ (s.statusByte_open opened)
    exact ⟨credit, discarded, failed, latch, by rw [causes, s.wakeCausesPending_iff], last⟩
  case lines =>
    rintro s e now n he rfl rfl
    exact ⟨fun held hsdi => ⟨s.clockRises_samples e he held hsdi, s.clockRises_again e he held hsdi⟩, s.clockFalls_eq e he,
      s.selectRises_eq e he, fun high => ⟨_, s.hsdo_driven e he high _, s.hsdoBit_driven e he high⟩⟩
  case frames =>
    rintro f payload rfl
    rfl
  case payloads => exact ⟨rfl, rfl, rfl, Outbound.payload_relay tag c position late data, rfl, rfl, rfl, rfl⟩
  case reasons => exact fun r => by cases r <;> rfl
  case notices => exact fun n => by cases n <;> rfl
  case results => exact fun x => by cases x <;> rfl

end Sys2Proof.Machine
end

section
/-! SUPPORT. What every move makes of the update engine and of the epoch floor. -/

namespace Sys2Proof.Machine

/-! ### An update under way, and none (R156, R157) -/

theorem State.updateSound_iff_of_working {s : State} (h : s.update.state.working = true) :
    s.updateSound ↔ s.update.latch = false ∧ ∃ e, s.update.stagedEpoch = some e ∧ s.store.floor < e := by
  unfold State.updateSound
  rw [if_pos h]

theorem State.updateSound_iff_of_not_working {s : State} (h : s.update.state.working = false) :
    s.updateSound ↔ s.update.staging = none ∧ s.update.stagedEpoch = none := by
  unfold State.updateSound
  rw [if_neg (by simp [h])]

theorem State.stagedEpoch_of (s : State) (e : Epoch) (h : s.update.stagedEpoch = some e) : s.stagedEpoch = e := by
  unfold State.stagedEpoch
  rw [h]
  rfl

/-- R164: the epoch that the swap makes the floor stands above the old one. -/
theorem State.floor_lt_stagedEpoch {s : State} (sound : s.updateSound) (h : s.update.state.working = true) :
    s.store.floor < s.stagedEpoch := by
  obtain ⟨_, e, staged, above⟩ := (State.updateSound_iff_of_working h).1 sound
  rw [s.stagedEpoch_of e staged]
  exact above

/-! ### The moves -/

/-- The update engine and the epoch floor stand as they did. -/
structure State.UpdateKept (s t : State) : Prop where
  update : t.update = s.update
  floor  : t.store.floor = s.store.floor

theorem State.UpdateKept.updateSound {s t : State} (kept : s.UpdateKept t) (h : s.updateSound) : t.updateSound := by
  unfold State.updateSound
  rw [kept.update, kept.floor]
  exact h

theorem State.updateKept_of_guarded {s t : State} (h : t.guarded = s.guarded) : s.UpdateKept t := by
  simp only [State.guarded, Prod.mk.injEq] at h
  obtain ⟨_, _, _, _, _, _, update, store, _, _, _, _⟩ := h
  exact ⟨update, congrArg ImageStore.floor store⟩

theorem State.UpdateKept.syncWindow {s t : State} (kept : s.UpdateKept t) : s.UpdateKept t.syncWindow := by
  obtain ⟨_, h⟩ := t.syncWindow_frame
  rw [h]
  exact ⟨kept.update, kept.floor⟩

theorem State.placeRound_updateKept (s : State) (r : RoundRecord) : s.UpdateKept (s.placeRound r) := by
  obtain ⟨_, _, h⟩ := s.placeRound_frame r
  rw [h]
  exact ⟨rfl, rfl⟩

/-- R156, R157, R164, R169: every move keeps the update sound, and from a sound state none lowers the epoch floor: the swap
raises it, and every other move leaves it as it is. -/
theorem Move.updateSound {s t : State} (m : Move s t) (h : s.updateSound) :
    t.updateSound ∧ s.store.floor ≤ t.store.floor := by
  have same : ∀ {t : State}, s.UpdateKept t → t.updateSound ∧ s.store.floor ≤ t.store.floor :=
    fun kept => ⟨kept.updateSound h, kept.floor.symm ▸ BitVec.le_refl _⟩
  cases m with
  | quiet g => exact same (State.updateKept_of_guarded g)
  | place r => exact same (s.placeRound_updateKept r)
  | pullIn => exact same (State.UpdateKept.syncWindow ⟨rfl, rfl⟩)
  | dropout => exact same (State.UpdateKept.syncWindow ⟨rfl, rfl⟩)
  | opened => exact same (State.UpdateKept.syncWindow ⟨rfl, rfl⟩)
  | windowOpened u e _ clear opened staged above =>
    have working : u.state.working = true := by rw [opened]; rfl
    exact ⟨(State.updateSound_iff_of_working working).2 ⟨clear, e, staged, above⟩, BitVec.le_refl _⟩
  | progress u before after staged latch =>
    obtain ⟨clear, e, epoch, above⟩ := (State.updateSound_iff_of_working before).1 h
    exact ⟨(State.updateSound_iff_of_working after).2 ⟨latch.trans clear, e, staged.trans epoch, above⟩, BitVec.le_refl _⟩
  | closed u closed staging epoch =>
    have idle : u.state.working = false := by rw [closed]; rfl
    exact ⟨(State.updateSound_iff_of_not_working idle).2 ⟨staging, epoch⟩, BitVec.le_refl _⟩
  | swapped verifying x u floor pending staging epoch =>
    have before : s.update.state.working = true := by rw [verifying]; rfl
    have after : u.state.working = false := by rw [pending]; rfl
    exact ⟨(State.updateSound_iff_of_not_working after).2 ⟨staging, epoch⟩,
      floor.symm ▸ BitVec.le_of_lt (State.floor_lt_stagedEpoch h before)⟩
  | latch idle =>
    refine ⟨(State.updateSound_iff_of_not_working ?_).2 ?_, BitVec.le_refl _⟩
    · exact idle
    · exact (State.updateSound_iff_of_not_working idle).1 h
  | unlatch =>
    refine ⟨?_, BitVec.le_refl _⟩
    cases working : s.update.state.working with
    | true =>
      refine (State.updateSound_iff_of_working ?_).2 ⟨rfl, ?_⟩
      · exact working
      · exact ((State.updateSound_iff_of_working working).1 h).2
    | false =>
      refine (State.updateSound_iff_of_not_working ?_).2 ?_
      · exact working
      · exact (State.updateSound_iff_of_not_working working).1 h
  | store x floor => exact same ⟨rfl, floor⟩
  | _ => exact same ⟨rfl, rfl⟩

/-- Every reset leaves nothing staged, and the store as it is (R2, R153, R156). -/
theorem Resets.updateSound {s t : State} (r : Resets s t) : t.updateSound := by
  refine (State.updateSound_iff_of_not_working ?_).2 ?_ <;> rw [r.update]
  · rfl
  · exact ⟨rfl, rfl⟩

/-- Settles O6: the update and the floor by the moves, the removal of a cause and the reset. -/
theorem updateStaysSound : Obligations.UpdateStaysSound := by
  intro s t sound e
  refine step_keeps (P := fun t => t.updateSound ∧ s.store.floor ≤ t.store.floor) (fun u v m ⟨sound, floor⟩ => ?move)
    (fun _ _ _ kept => kept) (fun u v r ⟨_, floor⟩ => ?reset) e ⟨sound, BitVec.le_refl _⟩
  case move =>
    obtain ⟨sound, raised⟩ := m.updateSound sound
    exact ⟨sound, BitVec.le_trans floor raised⟩
  case reset => exact ⟨r.updateSound, r.store.symm ▸ floor⟩

end Sys2Proof.Machine
end

section
/-! SUPPORT. The update window: UPDATE_OPEN and the blank image, the idle expiry, UPDATE_ABORT; and TAMPER_CLEAR. -/

namespace Sys2Proof.Machine

/-! ### UPDATE_OPEN (R157) -/

section Open

variable (s : State) (tag : Byte) (epoch : Epoch)

/-- R157: a row of the table that applies. -/
theorem exec_updateOpen_refused (ready : s.linkReady) (status : ReplyStatus) (result : ResultData)
    (h : s.openRefusal epoch = some (status, result)) :
    exec (.updateOpen tag epoch) s = .next (s.answered tag status result) := by
  refine exec_request_eq (.updateOpen tag epoch) s rfl ready (Eq.trans ?_ (s.taken_reply ready tag status result))
  have refused : s.taken.openRefusal epoch = some (status, result) := h
  show s.taken.requestUpdateOpen tag epoch = _
  unfold State.requestUpdateOpen
  rw [refused]

/-- R157: the window is OPEN for 10 s with a copy of the working image, or the blank one. -/
def State.windowOpened : State := { s with update := { s.update with
  state := .opened, staging := some (s.image.getD Image.blank), stagedEpoch := some epoch
  idleExpiry := some (s.time + 10000000#32) } }

/-- R157: no row of the table applies. -/
theorem exec_updateOpen_taken (ready : s.linkReady) (h : s.openRefusal epoch = none) : exec (.updateOpen tag epoch) s =
    .next ((s.windowOpened epoch).answered tag .done (.updateOpened s.store.floor s.workingEpoch)) := by
  refine exec_request_eq (.updateOpen tag epoch) s rfl ready
    (Eq.trans ?_ (State.taken_reply (s.windowOpened epoch) ready _ _ _))
  have taken : s.taken.openRefusal epoch = none := h
  show s.taken.requestUpdateOpen tag epoch = _
  unfold State.requestUpdateOpen
  rw [taken]
  rfl

theorem State.openRefusal_locked (latch : s.update.latch = true) : s.openRefusal epoch = some (.locked, .none) :=
  if_pos latch

section Unlocked

variable (latch : s.update.latch = false)

include latch

theorem State.openRefusal_waking (waking : s.sleep.op = .waking) :
    s.openRefusal epoch = some (.refusedState, .reason .state) := by
  unfold State.openRefusal
  rw [if_neg (by simp [latch]), if_pos waking]

variable (awake : s.sleep.op ≠ .waking)

include awake

theorem State.openRefusal_service (required : s.serviceRequired = true) (inactive : s.svcFilter.active = false) :
    s.openRefusal epoch = some (.refusedState, .reason .service) := by
  unfold State.openRefusal
  rw [if_neg (by simp [latch]), if_neg awake, if_pos (by simp [required, inactive])]

/-- R157: the last two rows. -/
theorem State.openRefusal_served (served : s.serviceRequired = false ∨ s.svcFilter.active = true) :
    s.openRefusal epoch = if s.update.state ≠ .closed then some (.busy, .none)
      else if epoch = 0#32 ∨ epoch ≤ s.store.floor then some (.badArgument, .none) else none := by
  have service : ¬(s.serviceRequired && !s.svcFilter.active) = true := by rcases served with h | h <;> simp [h]
  unfold State.openRefusal
  rw [if_neg (by simp [latch]), if_neg awake, if_neg service]

end Unlocked

end Open

/-- R157: the answers to UPDATE_OPEN in the order of the table. -/
theorem exec_updateOpen (s : State) (tag : Byte) (epoch : Epoch) (ready : s.linkReady) :
    (s.update.latch = true → exec (.updateOpen tag epoch) s = .next (s.answered tag .locked .none)) ∧
    (s.update.latch = false → s.sleep.op = .waking →
      exec (.updateOpen tag epoch) s = .next (s.answered tag .refusedState (.reason .state))) ∧
    (s.update.latch = false → s.sleep.op ≠ .waking →
      (s.serviceRequired = true → s.svcFilter.active = false →
        exec (.updateOpen tag epoch) s = .next (s.answered tag .refusedState (.reason .service))) ∧
      (s.serviceRequired = false ∨ s.svcFilter.active = true →
        (s.update.state ≠ .closed → exec (.updateOpen tag epoch) s = .next (s.answered tag .busy .none)) ∧
        (s.update.state = .closed → epoch = 0#32 ∨ epoch ≤ s.store.floor →
          exec (.updateOpen tag epoch) s = .next (s.answered tag .badArgument .none)) ∧
        (s.update.state = .closed → s.store.floor < epoch → exec (.updateOpen tag epoch) s =
          .next ((s.windowOpened epoch).answered tag .done (.updateOpened s.store.floor s.workingEpoch))))) := by
  have refused := fun status result => exec_updateOpen_refused s tag epoch ready status result
  refine ⟨fun latch => refused _ _ (s.openRefusal_locked epoch latch),
    fun latch waking => refused _ _ (s.openRefusal_waking epoch latch waking),
    fun latch awake => ⟨fun required inactive => refused _ _ (s.openRefusal_service epoch latch awake required inactive),
      fun served => ?_⟩⟩
  have rows := s.openRefusal_served epoch latch awake served
  refine ⟨fun busy => refused _ _ (rows.trans (if_pos busy)), fun closed low => ?_, fun closed above => ?_⟩
  · exact refused _ _ (rows.trans ((if_neg (not_not.2 closed)).trans (if_pos low)))
  · have high : ¬(epoch = 0#32 ∨ epoch ≤ s.store.floor) := by
      rintro (rfl | low)
      · exact BitVec.not_lt_zero above
      · exact BitVec.not_le.2 above low
    exact exec_updateOpen_taken s tag epoch ready (rows.trans ((if_neg (not_not.2 closed)).trans (if_neg high)))

/-! ### The blank image (R157, R186) -/

theorem emptyRecord_length (length : Nat) (h : 0 < length) : (emptyRecord length).length = length := by
  unfold emptyRecord
  rw [List.length_cons, List.length_replicate]
  omega

/-- A table of empty records. -/
theorem getD_empty_records (count length n : Nat) (h : 0 < length) (inside : n < count) (r : Record)
    (hr : r = (List.replicate count (emptyRecord length)).getD n []) : r.length = length ∧ r.head? = some 0#8 := by
  rw [hr, List.getD_replicate _ inside]
  exact ⟨emptyRecord_length length h, rfl⟩

theorem Image.blank_nodePlan_position (n : Nat) (h : n < 32) :
    Image.blank.nodePlan.getD n [] = (List.replicate 32 (emptyRecord 3)).getD n [] :=
  List.getD_append _ _ _ _ (by rw [List.length_replicate]; exact h)

theorem Image.blank_limitEntry (n : Nat) (h : n < 64) : Image.blank.limitEntry n = none := by
  have empty : Image.blank.limit.getD n [] = emptyRecord 18 := List.getD_replicate _ h
  unfold Image.limitEntry
  rw [empty]
  rfl

theorem Image.blank_plan (c : Chain) : Image.blank.plan c = [] := by cases c <;> rfl

theorem Image.blank_timing (c : Chain) : Image.blank.timing c = ⟨20, 1000, 0, 50, 0, false⟩ := by cases c <;> rfl

/-- Settles O52: the rows of UPDATE_OPEN, and the blank image table by table. -/
theorem updateOpenAnswers : Obligations.UpdateOpenAnswers := by
  refine ⟨exec_updateOpen, fun n r => ⟨?_, ?_, ?_⟩, rfl, rfl, rfl, fun c => ⟨Image.blank_timing c, Image.blank_plan c, ?_, ?_⟩,
    rfl, Image.blank_limitEntry, rfl, rfl, rfl, rfl, rfl, rfl, rfl⟩
  · exact fun ⟨inside, hr⟩ => getD_empty_records 16 6 n (by decide) inside r hr
  · exact fun ⟨inside, hr⟩ => getD_empty_records 32 3 n (by decide) inside r
      (hr.trans (Image.blank_nodePlan_position n inside))
  · exact fun ⟨inside, hr⟩ => getD_empty_records 64 18 n (by decide) inside r hr
  · cases c <;> rfl
  · cases c <;> rfl

/-! ### The idle expiry (R160) -/

/-- Settles O57: the expiry is due, and the window closes. -/
theorem idleExpiryClosesWindow : Obligations.IdleExpiryClosesWindow := by
  intro s due held opened expiry r
  have idle : s.idleDue = true := Bool.and_eq_true_iff.2 ⟨beq_iff_eq.2 opened, (expired_iff _ _).2 ⟨due, expiry, r⟩⟩
  exact exec_idleExpiry s held idle

/-! ### UPDATE_ABORT (R165) -/

/-- A commit that fails otherwise than at its read-back has no epoch in its notice (entry 27). -/
theorem State.failCommit_of_ne_verify (s : State) (k : Slot) (target : s.update.target = some k) (reason : CommitFailure)
    (h : reason ≠ .verify) : s.failCommit reason = ({ s with
      store := s.store.setSlot k { s.store.slot k with state := .invalid }
      update := { s.update with
        state := .closed, staging := none, stagedEpoch := none, idleExpiry := none, target := none
        lastOutcome := some (.commitFailed reason, s.time) }
      commit := .none } : State).notify (.commitFailed reason none) := by
  unfold State.failCommit
  dsimp only
  rw [s.invalidateTarget_target k target, if_neg h]
  rfl

section Abort

variable (s : State) (tag : Byte)

theorem State.requestUpdateAbort_closed (h : s.update.state = .closed ∨ s.update.state = .applyPending) :
    s.requestUpdateAbort tag = s.reply tag .refusedState .none := by
  unfold State.requestUpdateAbort
  rcases h with h | h <;> rw [h]

theorem State.requestUpdateAbort_opened (h : s.update.state = .opened) :
    s.requestUpdateAbort tag = (s.setUpdate UpdateEngine.emptied).reply tag .done .none := by
  unfold State.requestUpdateAbort
  rw [h]

theorem State.requestUpdateAbort_validating (h : s.update.state = .validating) :
    s.requestUpdateAbort tag = s.reply tag .busy .none := by
  unfold State.requestUpdateAbort
  rw [h]

theorem State.requestUpdateAbort_committing (h : s.update.state = .writing ∨ s.update.state = .verifying) :
    s.requestUpdateAbort tag = s.anyOrder [fun s => s.reply tag .done .none, fun s => s.failCommit .aborted] := by
  unfold State.requestUpdateAbort
  rcases h with h | h <;> rw [h]

end Abort

/-- Settles O58: the answer by update state; the DONE of an abandoned commit comes before the notice or after it. -/
theorem updateAbortAnswers : Obligations.UpdateAbortAnswers := by
  intro s tag ready
  have aborts : ∀ {t}, s.taken.requestUpdateAbort tag = t → exec (.updateAbort tag) s = .next t :=
    fun e => exec_request_eq (.updateAbort tag) s rfl ready e
  refine ⟨fun state => ?_, fun state => ?_, fun state => ?_, ?_⟩
  · exact aborts ((s.taken.requestUpdateAbort_closed tag state).trans (s.taken_reply ready _ _ _))
  · exact aborts ((s.taken.requestUpdateAbort_opened tag state).trans
      (State.taken_reply { s with update := s.update.emptied } ready _ _ _))
  · exact aborts ((s.taken.requestUpdateAbort_validating tag state).trans (s.taken_reply ready _ _ _))
  · rintro k _ state target rfl
    have orders := s.taken_anyOrder_reply { s with free := s.free + 2 } ready rfl tag .done .none fun t => t.failCommit .aborted
    have abandoned := s.taken.requestUpdateAbort_committing tag state
    refine orders.imp (fun e => aborts (abandoned.trans (e.trans ?before))) fun e => aborts (abandoned.trans (e.trans ?after))
    case before =>
      exact State.failCommit_of_ne_verify (State.answered { s with free := s.free + 2 } tag .done .none) k target .aborted
        (by decide)
    case after =>
      rw [State.failCommit_of_ne_verify (State.taken { s with free := s.free + 2 }) k target .aborted (by decide)]
      refine State.reply_queued _ tag .done .none ?_
      rw [State.notify_eq_offer, State.offer_link, HostLink.offer_state]
      exact s.taken_open ready

/-! ### TAMPER_CLEAR (R170) -/

section Tamper

variable (s : State) (tag : Byte)

theorem State.requestTamperClear_tamper (active : s.tampFilter.active = true) :
    s.requestTamperClear tag = s.refuse tag .refusedState .tamper := if_pos active

theorem State.requestTamperClear_service (quiet : s.tampFilter.active = false) (inactive : s.svcFilter.active = false) :
    s.requestTamperClear tag = s.refuse tag .refusedState .service :=
  (if_neg (by simp [quiet])).trans (if_pos (by simp [inactive]))

theorem State.requestTamperClear_clears (quiet : s.tampFilter.active = false) (service : s.svcFilter.active = true) :
    s.requestTamperClear tag = ({ s with
      update := { s.update with latch := false }, store := { s.store with tamperFlag := false } } : State).reply tag .done
        .none := (if_neg (by simp [quiet])).trans (if_neg (by simp [service]))

end Tamper

/-- Settles O59: the two refusals, and the latch with the flag of the store. -/
theorem tamperClearAnswers : Obligations.TamperClearAnswers := by
  intro s tag ready
  have clears : ∀ {t}, s.taken.requestTamperClear tag = t → exec (.tamperClear tag) s = .next t :=
    fun e => exec_request_eq (.tamperClear tag) s rfl ready e
  refine ⟨fun active => ?_, fun quiet inactive => ?_, fun quiet service => ?_⟩
  · exact clears ((s.taken.requestTamperClear_tamper tag active).trans (s.taken_refuse ready _ _ _))
  · exact clears ((s.taken.requestTamperClear_service tag quiet inactive).trans (s.taken_refuse ready _ _ _))
  · exact clears ((s.taken.requestTamperClear_clears tag quiet service).trans (State.taken_reply { s with
      update := { s.update with latch := false }, store := { s.store with tamperFlag := false } } ready _ _ _))

end Sys2Proof.Machine
end

section
/-! SUPPORT. READ_RECORD: its answers in order, and what the records of the nine tables say. -/

namespace Sys2Proof.Machine

/-! ### READ_RECORD by its answers (R159) -/

/-- R185: the codes that name no source. -/
theorem recordSource_none : ∀ source : Byte, source ≠ 1#8 → source ≠ 2#8 → recordSource source = none := by decide

section Read

variable (s : State) (tag table index source : Byte)

theorem State.requestReadRecord_bad
    (h : recordCount table ≤ index.toNat ∨ (source ≠ 1#8 ∧ source ≠ 2#8)) :
    s.requestReadRecord tag table index source = s.reply tag .badArgument .none := by
  unfold State.requestReadRecord recordExists
  rcases h with outside | ⟨working, staged⟩
  · rw [if_pos (by simp [outside])]
  · rw [recordSource_none source working staged]
    exact ite_self _

variable (inside : index.toNat < recordCount table)

include inside

theorem State.requestReadRecord_staged : s.requestReadRecord tag table index 2#8 =
    if s.update.state ≠ .opened then s.reply tag .refusedState .none
    else s.idleRestarted.reply tag .done (.record (s.staged.recordAt table index)) := by
  unfold State.requestReadRecord recordExists
  exact if_neg (by simp [inside])

theorem State.requestReadRecord_unconfigured (image : s.image = none) :
    s.requestReadRecord tag table index 1#8 = s.reply tag .refusedState .none := by
  unfold State.requestReadRecord recordExists
  rw [image]
  exact if_neg (by simp [inside])

theorem State.requestReadRecord_working (i : Image) (image : s.image = some i) :
    s.requestReadRecord tag table index 1#8 = s.reply tag .done (.record (i.recordAt table index)) := by
  unfold State.requestReadRecord recordExists
  rw [image]
  exact if_neg (by simp [inside])

end Read

theorem State.staged_of (s : State) (i : Image) (h : s.update.staging = some i) : s.staged = i := by
  unfold State.staged
  rw [h]
  rfl

/-- R159: the answers to READ_RECORD in the order of their tests. -/
theorem exec_readRecord (s : State) (tag table index source : Byte) (ready : s.linkReady) :
    (recordCount table ≤ index.toNat ∨ (source ≠ 1#8 ∧ source ≠ 2#8) →
      exec (.readRecord tag table index source) s = .next (s.answered tag .badArgument .none)) ∧
    (index.toNat < recordCount table →
      (s.update.state ≠ .opened →
        exec (.readRecord tag table index 2#8) s = .next (s.answered tag .refusedState .none)) ∧
      (∀ staged, s.update.state = .opened → s.update.staging = some staged →
        exec (.readRecord tag table index 2#8) s =
          .next (s.idleRestarted.answered tag .done (.record (staged.recordAt table index)))) ∧
      (s.image = none → exec (.readRecord tag table index 1#8) s = .next (s.answered tag .refusedState .none)) ∧
      (∀ i, s.image = some i → exec (.readRecord tag table index 1#8) s =
        .next (s.answered tag .done (.record (i.recordAt table index))))) := by
  have reads : ∀ {code t}, s.taken.requestReadRecord tag table index code = t →
      exec (.readRecord tag table index code) s = .next t :=
    fun {code} {_} e => exec_request_eq (.readRecord tag table index code) s rfl ready e
  refine ⟨fun bad => ?_, fun inside => ⟨fun closed => ?_, fun staged opened staging => ?_, fun image => ?_, fun i image => ?_⟩⟩
  · exact reads ((s.taken.requestReadRecord_bad tag table index source bad).trans (s.taken_reply ready _ _ _))
  · exact reads ((s.taken.requestReadRecord_staged tag table index inside).trans
      ((if_pos closed).trans (s.taken_reply ready _ _ _)))
  · have record : s.taken.staged = staged := s.taken.staged_of staged staging
    refine reads ((s.taken.requestReadRecord_staged tag table index inside).trans ((if_neg (not_not.2 opened)).trans ?_))
    rw [record]
    exact s.idleRestarted.taken_reply ready _ _ _
  · exact reads ((s.taken.requestReadRecord_unconfigured tag table index inside image).trans (s.taken_reply ready _ _ _))
  · exact reads ((s.taken.requestReadRecord_working tag table index inside i image).trans (s.taken_reply ready _ _ _))

/-! ### What the records say (R186) -/

theorem chainsOf_eq (code : Nat) : chainsOf code =
    (if code = 1 ∨ code = 3 then [Chain.A] else []) ++ if code = 2 ∨ code = 3 then [Chain.B] else [] := by
  unfold chainsOf
  simp only [Bool.or_eq_true, beq_iff_eq]

theorem readStep_eq (r : Record) : readStep r = if byteAt r 0 = 0 then none else some
    { trigger := Decidable.decide (byteAt r 0 = 2), width := field16 r 1
      chains := chainsOf (byteAt r 3), kind := sampleKindOf (byteAt r 4), report := flagAt r 5 } := by
  unfold readStep
  simp only [beq_iff_eq]
  rfl

theorem readLimit_eq (r : Record) : readLimit r = if byteAt r 0 = 0 then none else some
    { quantity := quantityOf (byteAt r 1), chains := chainsOf (byteAt r 2), firstPosition := byteAt r 3
      lastPosition := byteAt r 4, firstChannel := byteAt r 5, lastChannel := byteAt r 6, low := signed32 r 7
      high := signed32 r 11, persistence := byteAt r 15, action := actionAt r 16
      awake := Decidable.decide (byteAt r 17 = 1 ∨ byteAt r 17 = 3)
      asleep := Decidable.decide (byteAt r 17 = 2 ∨ byteAt r 17 = 3) } := by
  unfold readLimit
  simp only [beq_iff_eq, Bool.decide_or]
  rfl

theorem readPlanned_eq_some_iff (position : Nat) (r : Record) (p : Planned) :
    readPlanned position r = some p ↔ byteAt r 0 ≠ 0 ∧ p = ⟨position, byteAt r 1, byteAt r 2⟩ := by
  unfold readPlanned
  by_cases empty : byteAt r 0 = 0
  · simp [empty]
  · rw [if_neg (by simpa using empty)]
    exact ⟨fun h => ⟨empty, (Option.some.inj h).symm⟩, fun ⟨_, h⟩ => congrArg some h.symm⟩

/-- R151: the planned positions are those of the enabled records among the sixteen of a chain. -/
theorem mem_plan_iff (i : Image) (c : Chain) (p : Planned) : p ∈ i.plan c ↔
    ∃ n r, n < 16 ∧ i.nodePlan[16 * Chain.index c + n]? = some r ∧ readPlanned (n + 1) r = some p := by
  unfold Image.plan
  rw [List.reduceOption_mem_iff, List.mem_map]
  constructor
  · rintro ⟨⟨r, n⟩, mem, read⟩
    have found := List.mem_zipIdx_iff_getElem?.1 mem
    rw [List.getElem?_take, List.getElem?_drop] at found
    obtain ⟨inside, found⟩ := Option.ite_none_right_eq_some.1 found
    exact ⟨n, r, inside, found, read⟩
  · rintro ⟨n, r, inside, found, read⟩
    refine ⟨(r, n), List.mem_zipIdx_iff_getElem?.2 ?_, read⟩
    rw [List.getElem?_take_of_lt inside, List.getElem?_drop]
    exact found

/-- R151: the record of a position says whether it is planned, and with which counts. -/
theorem mem_plan_position_iff (i : Image) (c : Chain) (n : Nat) (p : Planned) (r : Record) (inside : n < 16)
    (records : i.nodePlan.length = 34) (hr : r = i.nodePlan.getD (if c = .A then n else n + 16) []) :
    (p ∈ i.plan c ∧ p.position = n + 1) ↔ byteAt r 0 ≠ 0 ∧ p = ⟨n + 1, byteAt r 1, byteAt r 2⟩ := by
  have found : i.nodePlan[16 * Chain.index c + n]? = some r := by
    have place : (if c = .A then n else n + 16) = 16 * Chain.index c + n := by cases c <;> simp [Chain.index, Nat.add_comm]
    have within : 16 * Chain.index c + n < i.nodePlan.length := by cases c <;> simp only [Chain.index] <;> omega
    rw [hr, place, List.getElem?_eq_getElem within, List.getD_eq_getElem _ _ within]
  rw [mem_plan_iff, ← readPlanned_eq_some_iff]
  constructor
  · rintro ⟨⟨m, q, _, at_m, read⟩, position⟩
    have same : m = n := by
      obtain ⟨_, rfl⟩ := (readPlanned_eq_some_iff (m + 1) q p).1 read
      exact Nat.succ.inj position
    subst same
    rw [Option.some.inj (at_m.symm.trans found)] at read
    exact read
  · intro read
    obtain ⟨_, position⟩ := (readPlanned_eq_some_iff (n + 1) r p).1 read
    exact ⟨⟨n, r, inside, found, read⟩, by rw [position]⟩

/-- Settles O54: the answers, the record of each table, and the fields of each record. -/
theorem readRecordAnswers : Obligations.ReadRecordAnswers := by
  refine ⟨exec_readRecord, ?_, ?_⟩
  · rintro i table index _ rfl
    exact ⟨rfl, rfl, rfl, rfl, rfl, rfl, rfl, rfl, rfl, rfl, recordCount_other table⟩
  · rintro i r _ _ _ _ _ _ _ _ rfl rfl rfl rfl rfl rfl rfl rfl
    refine ⟨?step, rfl, ?timing, fun c n p inside records hr => mem_plan_position_iff i c n p r inside records hr, ?loss,
      ?limit, ?action, ?channel, ?shared, ?capture, ?patrol, ?options⟩
    case step =>
      rw [readStep_eq, chainsOf_eq]
      rfl
    case timing =>
      rintro c rfl
      cases c <;> rfl
    case loss =>
      rintro c rfl
      cases c <;> exact ⟨rfl, rfl⟩
    case limit =>
      rintro n rfl
      rw [Image.limitEntry, readLimit_eq, chainsOf_eq]
      rfl
    case action =>
      rintro n rfl
      rfl
    case channel =>
      rintro k rfl
      cases k <;> rfl
    case shared =>
      rintro rfl
      rfl
    case capture =>
      rintro rfl
      exact ⟨rfl, rfl⟩
    case patrol =>
      rintro rfl _ rfl
      rw [Image.patrolTable, chainsOf_eq]
      rfl
    case options =>
      rintro rfl
      exact ⟨rfl, rfl⟩

end Sys2Proof.Machine
end

section
/-! SUPPORT. UPDATE_COMMIT: the request, the end of validation, the target slot, and the checks of validation one by one. -/

namespace Sys2Proof.Machine

/-! ### UPDATE_COMMIT by its answers (R161) -/

section Commit

variable (s : State) (tag : Byte) (word : BitVec 32)

theorem State.requestCommit_locked (latch : s.update.latch = true) :
    s.requestCommit tag word = s.reply tag .locked .none := if_pos latch

theorem State.requestCommit_busy (latch : s.update.latch = false)
    (state : s.update.state = .validating ∨ s.update.state = .writing ∨ s.update.state = .verifying) :
    s.requestCommit tag word = s.reply tag .busy .none := by
  unfold State.requestCommit
  rw [latch]
  rcases state with state | state | state <;> rw [state] <;> rfl

theorem State.requestCommit_closed (latch : s.update.latch = false)
    (state : s.update.state = .closed ∨ s.update.state = .applyPending) :
    s.requestCommit tag word = s.reply tag .refusedState .none := by
  unfold State.requestCommit
  rw [latch]
  rcases state with state | state <;> rw [state] <;> rfl

theorem State.requestCommit_opened (latch : s.update.latch = false) (state : s.update.state = .opened) :
    s.requestCommit tag word = { s with
      update := { s.update with state := .validating, idleExpiry := none }
      commit := ⟨some tag, word, 0#32, some (s.time + 2000#32), false⟩ } := by
  unfold State.requestCommit
  rw [latch, state]
  rfl

end Commit

/-- R161: the answers to UPDATE_COMMIT in the order of their tests; the REPLY of one that is taken is owed. -/
theorem exec_updateCommit (s : State) (tag : Byte) (word : BitVec 32) (ready : s.linkReady) :
    (s.update.latch = true → exec (.updateCommit tag word) s = .next (s.answered tag .locked .none)) ∧
    (s.update.latch = false →
      (s.update.state = .validating ∨ s.update.state = .writing ∨ s.update.state = .verifying →
        exec (.updateCommit tag word) s = .next (s.answered tag .busy .none)) ∧
      (s.update.state = .closed ∨ s.update.state = .applyPending →
        exec (.updateCommit tag word) s = .next (s.answered tag .refusedState .none)) ∧
      (s.update.state = .opened → exec (.updateCommit tag word) s = .next { s.taken with
        update := { s.update with state := .validating, idleExpiry := none }
        commit := ⟨some tag, word, 0#32, some (s.time + 2000#32), false⟩ })) := by
  have commits : ∀ {t}, s.taken.requestCommit tag word = t → exec (.updateCommit tag word) s = .next t :=
    fun e => exec_request_eq (.updateCommit tag word) s rfl ready e
  refine ⟨fun latch => ?_, fun latch => ⟨fun state => ?_, fun state => ?_, fun state => ?_⟩⟩
  · exact commits ((s.taken.requestCommit_locked tag word latch).trans (s.taken_reply ready _ _ _))
  · exact commits ((s.taken.requestCommit_busy tag word latch state).trans (s.taken_reply ready _ _ _))
  · exact commits ((s.taken.requestCommit_closed tag word latch state).trans (s.taken_reply ready _ _ _))
  · exact commits (s.taken.requestCommit_opened tag word latch state)

/-! ### The end of validation (R162, R163) -/

section Validation

variable (s : State) (tag : Byte) (i : Image) (e : Epoch) (owed : s.commit.tag = some tag) (link : s.link.state ≠ .shut)
  (staging : s.update.staging = some i) (staged : s.update.stagedEpoch = some e)

include owed link in
/-- R161: the REPLY that a commit owes joins the queue. -/
theorem State.answerCommit_queued (status : ReplyStatus) (result : ResultData) : s.answerCommit status result =
    ({ s with commit := { s.commit with tag := none } } : State).queued (.reply tag status result) :=
  (s.answerCommit_owed tag status result owed).trans (State.reply_queued _ tag status result link)

include staging staged

theorem State.validationFailure_staged :
    validationFailure s.staged s.store.identity s.stagedEpoch s.commit.word =
      validationFailure i s.store.identity e s.commit.word := by
  rw [s.staged_of i staging, s.stagedEpoch_of e staged]

include owed link

theorem State.endValidation_failed (r : Reason) (fails : validationFailure i s.store.identity e s.commit.word = some r) :
    s.endValidation = ({ s with
      update := { s.update with state := .opened, idleExpiry := some (s.time + 10000000#32) }
      commit := ⟨none, 0#32, 0#32, none, false⟩ } : State).queued (.reply tag .refusedState (.reason r)) := by
  unfold State.endValidation
  rw [s.validationFailure_staged i e staging staged, fails]
  dsimp only
  rw [s.answerCommit_queued tag owed link]
  rfl

theorem State.endValidation_passed (passes : validationFailure i s.store.identity e s.commit.word = none) :
    s.endValidation = ({ s with
      store := s.store.setSlot s.targetSlot { s.store.slot s.targetSlot with
        state := .writing, epoch := e, image := Image.erased }
      update := { s.update with state := .writing, target := some s.targetSlot }
      commit := { s.commit with
        tag := none, kept := checkWord s.store.identity e i, bound := some (s.time + 40000#32), storeFault := false }
      } : State).queued (.reply tag .accepted .none) := by
  unfold State.endValidation
  rw [s.validationFailure_staged i e staging staged, passes]
  dsimp only
  rw [s.answerCommit_queued tag owed link, s.staged_of i staging, ← s.stagedEpoch_of e staged]
  rfl

end Validation

/-! ### The target slot (R163) -/

section Target

variable (s : State)

/-- R163: while an image works, the slot it did not come from. -/
theorem State.targetSlot_working (w : Working) (h : s.working = some w) : s.targetSlot ≠ w.slot := by
  obtain ⟨image, epoch, slot⟩ := w
  unfold State.targetSlot
  rw [h]
  cases slot <;> simp

/-- R163: the slot while no image works. -/
theorem State.targetSlot_unconfigured (h : s.working = none) : s.targetSlot =
    if s.store.slotA.state ≠ .valid then .A
    else if s.store.slotB.state ≠ .valid then .B
    else if s.store.slotA.epoch < s.store.slotB.epoch then .A
    else .B := by
  unfold State.targetSlot
  rw [h]

end Target

/-! ### STEPS (R161) -/

section Steps

variable (i : Image)

/-- R161: the schedule record of an index is there and not marked empty. -/
def scheduleEnabled (n : Nat) : Prop := n < i.schedule.length ∧ byteAt (i.schedule.getD n []) 0 ≠ 0

/-- R161: an enabled schedule record that follows an empty one. -/
def scheduleLate (n : Nat) : Prop := scheduleEnabled i n ∧ ∃ m, m < n ∧ ¬scheduleEnabled i m

theorem emptyMark_iff (r : Record) : emptyMark r = true ↔ byteAt r 0 = 0 := beq_iff_eq

/-- A record beyond the table reads as an empty one. -/
theorem scheduleEnabled_iff (n : Nat) : scheduleEnabled i n ↔ emptyMark (i.schedule.getD n []) = false := by
  rw [← Bool.not_eq_true, emptyMark_iff]
  refine ⟨fun ⟨_, h⟩ => h, fun h => ⟨Nat.lt_of_not_le fun beyond => h ?_, h⟩⟩
  rw [List.getD_eq_default _ _ beyond]
  rfl

theorem not_scheduleEnabled_iff (n : Nat) : ¬scheduleEnabled i n ↔ emptyMark (i.schedule.getD n []) = true := by
  rw [scheduleEnabled_iff, Bool.not_eq_false]

theorem stepsFailure_first (h : ¬scheduleEnabled i 0) : stepsFailure i = some (.steps 1#8 0#8) :=
  if_pos ((not_scheduleEnabled_iff i 0).1 h)

theorem stepsFailure_late (n : Nat) (first : scheduleEnabled i 0) (late : scheduleLate i n)
    (before : ∀ m, m < n → ¬scheduleLate i m) : stepsFailure i = some (.steps 1#8 (byteOfNat n)) := by
  obtain ⟨enabled, m, earlier, empty⟩ := late
  have found : enabledAfterEmpty 0 false i.schedule = some (0 + n) := by
    refine enabledAfterEmpty_some i.schedule 0 false n enabled.1 ((scheduleEnabled_iff i n).1 enabled)
      (.inr ⟨m, earlier, (not_scheduleEnabled_iff i m).1 empty⟩) fun j hj => ?_
    by_cases marked : scheduleEnabled i j
    · refine .inr ⟨rfl, fun k hk => (scheduleEnabled_iff i k).1 ?_⟩
      by_contra gap
      exact before j hj ⟨marked, k, hk, gap⟩
    · exact .inl ((not_scheduleEnabled_iff i j).1 marked)
  unfold stepsFailure
  rw [if_neg (by rw [(scheduleEnabled_iff i 0).1 first]; simp), found, Nat.zero_add]

/-- Without a gap the step list is refused only for want of a TRIGGER step. -/
theorem stepsFailure_gapless (first : scheduleEnabled i 0) (gapless : ∀ n, ¬scheduleLate i n) : stepsFailure i =
    if i.steps.any ScheduleStep.trigger then none else some (.steps 1#8 Config.noTriggerIndex) := by
  have none_ : enabledAfterEmpty 0 false i.schedule = none := by
    refine enabledAfterEmpty_none i.schedule 0 false fun n _ marked => ⟨rfl, fun m hm => (scheduleEnabled_iff i m).1 ?_⟩
    by_contra gap
    exact gapless n ⟨(scheduleEnabled_iff i n).2 marked, m, hm, gap⟩
  unfold stepsFailure
  rw [if_neg (by rw [(scheduleEnabled_iff i 0).1 first]; simp), none_]

end Steps

/-! ### WIDTH, SCOPE, ACTION and ROLES (R161) -/

/-- A check that names the first element that satisfies a test, for the test as a proposition. -/
theorem firstIndex_spec {α : Type} (p : α → Bool) (bad : α → Prop) (h : ∀ x, p x = true ↔ bad x) (l : List α) :
    ((∀ x ∈ l, ¬bad x) → firstIndex p l = none) ∧
    (∀ before x after, l = before ++ x :: after → bad x → (∀ y ∈ before, ¬bad y) → firstIndex p l = some before.length) := by
  have passes : ∀ x, ¬bad x → p x = false := fun x good => Bool.eq_false_iff.2 fun holds => good ((h x).1 holds)
  refine ⟨fun none_ => firstIndex_none p l fun x mem => passes x (none_ x mem), fun before x after split first rest => ?_⟩
  rw [split]
  exact firstIndex_append p before after x ((h x).2 first) fun y mem => passes y (rest y mem)

theorem tooNarrow_iff (i : Image) (x : ScheduleStep) : tooNarrow i x = true ↔
    x.trigger = true ∧ ∃ c ∈ x.chains, x.width * 100 < (i.timing c).window := by
  unfold tooNarrow ScheduleStep.duration
  simp

/-- R161: of a TEMP entry the temperatures count, of every other the cells. -/
theorem plannedCount_eq (q : Quantity) (p : Planned) : plannedCount q p = if q = .temp then p.temps else p.cells := by
  cases q <;> rfl

/-- R161: no planned position of the chain is in the entry's range, or none in it has the entry's first channel. -/
def chainUncovered (i : Image) (e : LimitEntry) (c : Chain) : Prop :=
  (∀ p ∈ i.plan c, ¬(e.firstPosition ≤ p.position ∧ p.position ≤ e.lastPosition)) ∨
  (∀ p ∈ i.plan c, e.firstPosition ≤ p.position → p.position ≤ e.lastPosition →
    (if e.quantity = .temp then p.temps else p.cells) < e.firstChannel)

theorem outOfScope_iff (i : Image) (e : LimitEntry) (c : Chain) : outOfScope i e c = true ↔ chainUncovered i e c := by
  unfold outOfScope inRange chainUncovered
  simp only [Bool.or_eq_true, List.isEmpty_iff, List.filter_eq_nil_iff, List.all_eq_true, List.mem_filter, Bool.and_eq_true,
    decide_eq_true_eq, and_imp, plannedCount_eq]

/-- An enabled limit record of which a property holds. -/
def limitRecordIs (bad : LimitEntry → Prop) (r : Record) : Prop := ∃ e, readLimit r = some e ∧ bad e

theorem scopeFails_iff (i : Image) (r : Record) : scopeFails i r = true ↔
    limitRecordIs (fun e => e.quantity ≠ .current ∧ ∃ c ∈ e.chains, chainUncovered i e c) r := by
  unfold scopeFails limitRecordIs
  cases readLimit r with
  | none => simp
  | some e => simp [outOfScope_iff]

theorem actionMissing_iff (r : Record) : actionMissing r = true ↔ limitRecordIs (fun e => e.action = none) r := by
  unfold actionMissing limitRecordIs
  cases readLimit r with
  | none => simp
  | some e => simp

theorem rolesFailure_eq (i : Image) (role : ChannelId → Role) (h : role = fun k => (i.channelProfile k).role) :
    rolesFailure i =
      if role .K2 = role .K1 then some (.roles 6#8 1#8)
      else if role .K3 = role .K1 ∨ role .K3 = role .K2 then some (.roles 6#8 2#8)
      else if role .K4 = role .K1 ∨ role .K4 = role .K2 ∨ role .K4 = role .K3 then some (.roles 6#8 3#8) else none := by
  subst h
  unfold rolesFailure repeatedRole
  simp only [apply_ite (Option.map fun n => Reason.roles 6#8 (byteOfNat n))]
  rfl

/-! ### The check word (R154, 11.4) -/

/-- 11.4: the check value of the CRC-32, over the nine digits. -/
theorem crc32_check :
    crc32 [0x31#8, 0x32#8, 0x33#8, 0x34#8, 0x35#8, 0x36#8, 0x37#8, 0x38#8, 0x39#8] = 0xCBF43926#32 := by decide +kernel

/-- Settles O55: the request, the end of validation, the target slot, each check, and the check word. -/
theorem commitValidates : Obligations.CommitValidates := by
  refine ⟨⟨⟨⟨exec_updateCommit, fun s tag i e held validating owed link staging staged => ⟨fun r fails => ?_, fun passes => ?_⟩⟩,
    fun s => ⟨s.targetSlot_working, fun none_ => ?target⟩⟩, ?checks⟩, ?word⟩
  · rw [exec_validationEnd s held (s.updating_of _ validating),
      s.endValidation_failed tag i e owed link staging staged r fails]
  · rw [exec_validationEnd s held (s.updating_of _ validating),
      s.endValidation_passed tag i e owed link staging staged passes]
  case target =>
    rw [s.targetSlot_unconfigured none_]
    refine ⟨fun a => if_pos a, fun a b => ?_, fun a b => ⟨fun lower => ?_, fun lower => ?_⟩⟩
    · rw [if_neg (not_not.2 a), if_pos b]
    · rw [if_neg (not_not.2 a), if_neg (not_not.2 b), if_pos lower]
    · rw [if_neg (not_not.2 a), if_neg (not_not.2 b), if_neg (BitVec.not_lt.2 lower)]
  case checks =>
    rintro i identity epoch word _ _ _ _ _ role rfl rfl rfl rfl rfl hrole
    obtain ⟨wide, narrow⟩ := firstIndex_spec (tooNarrow i) _ (tooNarrow_iff i) i.steps
    obtain ⟨inScope, outside⟩ := firstIndex_spec (scopeFails i) _ (scopeFails_iff i) i.limit
    obtain ⟨acts, inert⟩ := firstIndex_spec actionMissing _ actionMissing_iff i.limit
    refine ⟨rfl, stepsFailure_first i, stepsFailure_late i, fun first gapless => ⟨fun untriggered => ?_, fun triggered => ?_⟩,
      fun h => congrArg _ (wide h), fun before x after split bad good => congrArg _ (narrow before x after split bad good),
      fun h => congrArg _ (inScope h), fun before r after split bad good => congrArg _ (outside before r after split bad good),
      fun h => congrArg _ (acts h), fun before r after split bad good => congrArg _ (inert before r after split bad good),
      rolesFailure_eq i role hrole, rfl, rfl, rfl⟩
    · exact ⟨_, (stepsFailure_gapless i first gapless).trans (if_neg (by simpa using untriggered))⟩
    · exact (stepsFailure_gapless i first gapless).trans (if_pos (by simpa using triggered))
  case word =>
    rintro i identity bytes _ rfl
    exact ⟨rfl, crc32_check, rfl, by simp [Image.records, Image.tables], fun r n => ⟨rfl, rfl⟩⟩

end Sys2Proof.Machine
end

section
/-! SUPPORT. STATUS: the codes that name no section, the answer by what the code names, and the GENERAL section. -/

namespace Sys2Proof.Machine

/-! ### STATUS (R180) -/

/-- R185: the codes of the sections are 1 to 9. -/
theorem State.statusSection_none (s : State) (code : Byte) (h : code.toNat = 0 ∨ 9 < code.toNat) :
    s.statusSection code = none := by
  unfold State.statusSection
  split
  case h_10 => rfl
  all_goals omega

/-- R175, entry 52: GENERAL counts the STATUS that asks for it among the answers owed. -/
theorem State.taken_generalSection (s : State) (ready : s.linkReady) :
    s.taken.statusSection 1#8 = some (.general s.sleep.op s.sleep.phase s.cursor s.roundCounter .opened s.link.answers
      s.link.unsolicited (s.link.owed + 1) s.link.unsolicitedDiscard) := by
  obtain ⟨-, opened, -⟩ := ready
  rw [← opened]
  rfl

section Requests

variable (s : State) (tag code : Byte)

theorem State.requestStatus_unknown (h : s.statusSection code = none) :
    s.requestStatus tag code = s.reply tag .badArgument .none := by
  unfold State.requestStatus
  rw [h]

variable (x : StatusSection)

theorem State.requestStatus_shows (other : code ≠ 1#8) (h : s.statusSection code = some x) :
    s.requestStatus tag code = s.reply tag .done (.status s.time s.workingEpoch x) := by
  unfold State.requestStatus
  rw [h]
  dsimp only
  rw [if_neg other]

theorem State.requestStatus_general (h : s.statusSection 1#8 = some x) : s.requestStatus tag 1#8 =
    ({ s with link := { s.link with unsolicitedDiscard := false } } : State).reply tag .done
      (.status s.time s.workingEpoch x) := by
  unfold State.requestStatus
  rw [h]
  rfl

end Requests

/-- Settles O13: the answer by what the code names, and the contents of each section. -/
theorem statusAnswers : Obligations.StatusAnswers := by
  intro s tag code ready
  have answers : ∀ {n t}, s.taken.requestStatus tag n = t → exec (.status tag n) s = .next t :=
    fun e => exec_request_eq (.status tag _) s rfl ready e
  refine ⟨fun unknown => ?_, fun other x shown => ?_, fun x shown => ?_, s.taken_generalSection ready, rfl, rfl, rfl,
    fun c p port => ?chain, rfl, rfl, fun a b slotA slotB => ?update⟩
  · have unnamed := s.taken.statusSection_none code unknown
    exact answers ((s.taken.requestStatus_unknown tag code unnamed).trans (s.taken_reply ready _ _ _))
  · exact answers ((s.taken.requestStatus_shows tag code x other shown).trans (s.taken_reply ready _ _ _))
  · exact answers ((s.taken.requestStatus_general tag x shown).trans
      (State.taken_reply { s with link := { s.link with unsolicitedDiscard := false } } ready _ _ _))
  case chain =>
    subst port
    cases c <;> rfl
  case update =>
    subst slotA slotB
    rfl

end Sys2Proof.Machine
end

section
/-! SUPPORT. A step on a queue that is not empty. -/

namespace Sys2Proof.Machine

/-- The counterpart of `step_held` and `step_tick`: where a command waits, no time passes and the command acts (entry 1). -/
theorem step_front (s : State) (c : Instr) (rest : List Instr) (waits : s.pending = c :: rest) :
    step s = exec c { s with pending := rest } := by
  unfold step
  rw [waits]

/-- Settles O1: `step_front` at a state whose queue is written out. -/
theorem stepTakesFrontCommand : Obligations.StepTakesFrontCommand :=
  fun c rest s => step_front { s with pending := c :: rest } c rest rfl

end Sys2Proof.Machine
end
